-- ==== Sys2Proof/Word.lean ====
section
/-! DEFINITION. The words of the block and their plainest arithmetic (00_scope.md R10, R11). -/

namespace Sys2Proof

/-- A byte (R10: "A byte is 8 bits"). -/
abbrev Byte := BitVec 8

/-- A LIN identifier, 6 bits (R9 `ID_W`, R15 "id"). No wider value can be written (R85). -/
abbrev Ident := BitVec 6

/-- The position register, 4 bits (R9 `POS_W`, R19). -/
abbrev Pos := BitVec 4

/-- An outcome code, 2 bits (R26, R57). -/
abbrev Code := BitVec 2

/-- Raw frame storage: eleven byte registers indexed by slot (R17, R22, R35). -/
abbrev Slots := Vector Byte 11

/-- R11: `add8(a, b) = (a + b) mod 256`. -/
abbrev add8 (a b : Byte) : Byte := a + b

end Sys2Proof
end

