-- ==== Sys2Proof/Machine/Flags.lean ====
section
/-! DEFINITION. The outcome codes of one cycle (R57, R109). -/

namespace Sys2Proof.Machine

/-- Code `00` NONE. -/
def outcomeNone : Code := 0b00

/-- Code `01` VERIFIED. -/
def outcomeVerified : Code := 0b01

/-- Code `10` REJECTED. -/
def outcomeRejected : Code := 0b10

/-- R109: the outcome of a checksum byte. -/
def outcomeOf (ok : Bool) : Code := if ok = true then outcomeVerified else outcomeRejected

end Sys2Proof.Machine
end

