-- ==== Sys2Proof/Config.lean ====
section
/-! DEFINITION. The parameters of the block (00_scope.md R9). Fixed ones have the value of R9's table;
`tsWidth` is the one OPEN parameter and has no value here. -/

namespace Sys2Proof.Config

/-- R9 `TS_W`, "width of the timestamp", an OPEN parameter (D10): any width, nothing is assumed of it, so
that the whole model takes it as its argument. Log 5. -/
opaque tsWidth : Nat

/-- R9 `NSLOT`: raw frame slots 0..10. -/
abbrev nSlot : Nat := 11

/-- R9 `MAXDLC`: payload storage bytes. -/
abbrev maxDlc : Nat := 8

/-- R9 `DATA0`: slot of the first payload byte. -/
abbrev dataStart : Nat := 2

/-- R9 `CHKSLOT`: the checksum slot. -/
abbrev chkSlot : Nat := 10

/-- R9 `WAITPOS`: "conceptual slot 11", never written, used as the wait state. -/
abbrev waitPos : Nat := 11

/-- R35: the slot of the sync byte. -/
abbrev syncSlot : Nat := 0

/-- R35: the slot of the PID byte. -/
abbrev pidSlot : Nat := 1

end Sys2Proof.Config

namespace Sys2Proof

/-- A reading of the external time base, `TS_W` bits: the width of `now` (R29), of `last_ts` (R25) and of
`last_byte_ts` (R30). The block only moves it, never computes with it (R116). -/
abbrev Timestamp := BitVec Config.tsWidth

end Sys2Proof
end

