-- ==== Sys2Proof/Syntax.lean ====
section
/-! DEFINITION. The operations of the block, one constructor per row of spec/opcode_table.json (R14).
The word formats they are selected by stand in Decode.lean. -/

namespace Sys2Proof

/-- The operations (R14). A receive operation carries its framing-error flag `f` (IW[8]) and its byte `b`
(IW[7:0]); the fields that R50 calls ignored are not operands. -/
inductive Instr where
  /-- RESET, R119. -/
  | reset
  /-- IDLE, R73. -/
  | idle
  /-- RX_SYNC, R63; its words have F = 1. -/
  | rxSync (b : Byte)
  /-- RX_SLOT0, R74. -/
  | rxSlot0 (f : Bool) (b : Byte)
  /-- RX_PID, R75. -/
  | rxPid (f : Bool) (b : Byte)
  /-- RX_IGNORE, R78. -/
  | rxIgnore (f : Bool) (b : Byte)
  /-- RX_CHK, R77. -/
  | rxChk (f : Bool) (b : Byte)
  /-- RX_DATA, R76. -/
  | rxData (f : Bool) (b : Byte)
  /-- DLC_2, R84. -/
  | dlc2 (id : Ident)
  /-- DLC_4, R84. -/
  | dlc4 (id : Ident)
  /-- DLC_8, R84. -/
  | dlc8 (id : Ident)
  /-- CHK_CLASSIC_LEGACY, R93: selector with cfg_legacy = 1. -/
  | chkClassicLegacy (id : Ident)
  /-- CHK_CLASSIC_DIAG, R93: selector with cfg_legacy = 0 and a diagnostic identifier. -/
  | chkClassicDiag (id : Ident)
  /-- CHK_ENHANCED, R94: any other selector. -/
  | chkEnhanced (id : Ident)
deriving DecidableEq, Repr

end Sys2Proof
end

