-- ==== Sys2Proof/WellFormed.lean ====
section
/-! DEFINITION. Which terms of Instr stand for a row's words: the identifier of a lookup lies in its row's
pattern (R53, R54). The receive rows admit every byte and flag (R50: no input word is illegal). -/

namespace Sys2Proof

/-- The identifier operand lies in the range its row gives (R53 for DLC_n, R54 for CHK_*). -/
def Instr.wf : Instr → Bool
  | .reset => true
  | .idle => true
  | .rxSync _ => true
  | .rxSlot0 _ _ => true
  | .rxPid _ _ => true
  | .rxIgnore _ _ => true
  | .rxChk _ _ => true
  | .rxData _ _ => true
  | .dlc2 id => decide (id.toNat ≤ 0x1F)
  | .dlc4 id => decide (0x20 ≤ id.toNat) && decide (id.toNat ≤ 0x2F)
  | .dlc8 id => decide (0x30 ≤ id.toNat)
  | .chkClassicLegacy _ => true
  | .chkClassicDiag id => decide (0x3C ≤ id.toNat)
  | .chkEnhanced id => decide (id.toNat ≤ 0x3B)

end Sys2Proof
end

