-- ==== Sys2Proof/Decode.lean ====
section
/-! DEFINITION. The input word and its fields (R49), the decode of all fourteen rows (R51, R53, R54), the encoder
written from the same patterns, and the opcode table itself as data. -/

namespace Sys2Proof

/-- A word of one of the three formats of the opcode table. -/
inductive OpWord where
  /-- IW11: the input word of a clock cycle (R49). -/
  | iw (w : BitVec 11)
  /-- ID6: an identifier at the input of the DLC lookup (R53). -/
  | id (w : BitVec 6)
  /-- SW7: a selector `{cfg_legacy, id}` at the input of the checksum-scheme lookup (R54). -/
  | sw (w : BitVec 7)
deriving DecidableEq, Repr

/-- What `Decode` reads beside the input word: position, previous byte and the length of the frame in
assembly (R31, R51). -/
structure Seq where
  pos : Pos
  prev : Byte
  wDlc : Nat
deriving DecidableEq, Repr

/-! ### Fields of the input word, R49 -/

/-- `IW[10]`, port rst. -/
def iwRst (w : BitVec 11) : Bool := w.getLsbD 10

/-- `IW[9]`, port rx_valid. -/
def iwValid (w : BitVec 11) : Bool := w.getLsbD 9

/-- `IW[8]`, port rx_ferr. -/
def iwFerr (w : BitVec 11) : Bool := w.getLsbD 8

/-- `IW[7:0]`, port rx_data. -/
def iwData (w : BitVec 11) : Byte := w.extractLsb' 0 8

/-- The input word with the given fields, `R V F DDDDDDDD` most significant first (R49). -/
def mkIw (r v f : Bool) (d : Byte) : BitVec 11 := BitVec.ofBool r ++ BitVec.ofBool v ++ BitVec.ofBool f ++ d

/-- The low 6 bits of a PID byte (R52: `id := b[5:0]`). -/
def idOf (b : Byte) : Ident := b.extractLsb' 0 6

/-- The selector `SW := {cfg_legacy, id[5:0]}` (R54). -/
def mkSw (legacy : Bool) (id : Ident) : BitVec 7 := BitVec.ofBool legacy ++ id

/-- R61: the sync predicate, for a consumed byte with framing-error flag `ferr`. -/
def syncDetected (ferr : Bool) (prev : Byte) : Bool := ferr && prev == 0x00

/-! ### Decode -/

/-- R51: the operation of a clock cycle, tested in the order of the rule. -/
def decodeIw (w : BitVec 11) (q : Seq) : Instr :=
  if iwRst w = true then .reset
  else if iwValid w = false then .idle
  else if syncDetected (iwFerr w) q.prev = true then .rxSync (iwData w)
  else if q.pos.toNat = 0 then .rxSlot0 (iwFerr w) (iwData w)
  else if q.pos.toNat = 1 then .rxPid (iwFerr w) (iwData w)
  else if 11 ≤ q.pos.toNat then .rxIgnore (iwFerr w) (iwData w)
  else if q.pos.toNat = 2 + q.wDlc ∨ q.pos.toNat = 10 then .rxChk (iwFerr w) (iwData w)
  else .rxData (iwFerr w) (iwData w)

/-- R53: the DLC row of an identifier, by the masks and matches of its table. -/
def decodeId (id : Ident) : Instr :=
  if id &&& 0x20 = 0x00 then .dlc2 id
  else if id &&& 0x30 = 0x20 then .dlc4 id
  else .dlc8 id

/-- R54: the checksum-scheme row of a selector, tested in the order of its table. -/
def decodeSw (sw : BitVec 7) : Instr :=
  if sw &&& 0x40 = 0x40 then .chkClassicLegacy (sw.extractLsb' 0 6)
  else if sw &&& 0x7C = 0x3C then .chkClassicDiag (sw.extractLsb' 0 6)
  else .chkEnhanced (sw.extractLsb' 0 6)

/-- The decode of a word of any format. It has no refusal: every word of every format selects exactly one
operation (R50, R53, R54, R55). -/
def decode (w : OpWord) (q : Seq) : Instr :=
  match w with
  | .iw w => decodeIw w q
  | .id id => decodeId id
  | .sw sw => decodeSw sw

/-- Why a number is no word of the opcode table. -/
inductive DecodeError where
  /-- It is wider than IW11, the one input-word length (R58). -/
  | widerThanInputWord
  /-- It is wider than both lookup formats ID6 and SW7 (R53, R54). -/
  | widerThanLookupWord
deriving DecidableEq, Repr

/-! ### Encode -/

/-- The word of an operation, from the patterns of the opcode table. The bits R50 calls ignored are 0. Log 11. -/
def encode : Instr → OpWord
  | .reset => .iw (mkIw true false false 0)
  | .idle => .iw (mkIw false false false 0)
  | .rxSync b => .iw (mkIw false true true b)
  | .rxSlot0 f b => .iw (mkIw false true f b)
  | .rxPid f b => .iw (mkIw false true f b)
  | .rxIgnore f b => .iw (mkIw false true f b)
  | .rxChk f b => .iw (mkIw false true f b)
  | .rxData f b => .iw (mkIw false true f b)
  | .dlc2 id => .id id
  | .dlc4 id => .id id
  | .dlc8 id => .id id
  | .chkClassicLegacy id => .sw (mkSw true id)
  | .chkClassicDiag id => .sw (mkSw false id)
  | .chkEnhanced id => .sw (mkSw false id)

/-! ### The opcode table -/

/-- A row's mask and match (spec/opcode_table.json), in the row's own format. -/
structure Pattern where
  mask : OpWord
  pattern : OpWord
deriving DecidableEq, Repr

/-- The word has the row's format and its masked bits are the row's match. -/
def Pattern.admits (p : Pattern) (w : OpWord) : Bool :=
  match p.mask, p.pattern, w with
  | .iw m, .iw v, .iw x => x &&& m == v
  | .id m, .id v, .id x => x &&& m == v
  | .sw m, .sw v, .sw x => x &&& m == v
  | _, _, _ => false

/-- The mask and match columns of spec/opcode_table.json. -/
def Instr.row : Instr → Pattern
  | .reset => ⟨.iw 0x400, .iw 0x400⟩
  | .idle => ⟨.iw 0x600, .iw 0x000⟩
  | .rxSync _ => ⟨.iw 0x700, .iw 0x300⟩
  | .rxSlot0 _ _ => ⟨.iw 0x600, .iw 0x200⟩
  | .rxPid _ _ => ⟨.iw 0x600, .iw 0x200⟩
  | .rxIgnore _ _ => ⟨.iw 0x600, .iw 0x200⟩
  | .rxChk _ _ => ⟨.iw 0x600, .iw 0x200⟩
  | .rxData _ _ => ⟨.iw 0x600, .iw 0x200⟩
  | .dlc2 _ => ⟨.id 0x20, .id 0x00⟩
  | .dlc4 _ => ⟨.id 0x30, .id 0x20⟩
  | .dlc8 _ => ⟨.id 0x30, .id 0x30⟩
  | .chkClassicLegacy _ => ⟨.sw 0x40, .sw 0x40⟩
  | .chkClassicDiag _ => ⟨.sw 0x7C, .sw 0x3C⟩
  | .chkEnhanced _ => ⟨.sw 0x40, .sw 0x00⟩

/-- The `cond` column of spec/opcode_table.json: the sequencing states in which a row is selected. -/
def Instr.cond (i : Instr) (q : Seq) : Bool :=
  match i with
  | .reset => true
  | .idle => true
  | .rxSync _ => q.prev == 0x00
  | .rxSlot0 f _ => !(f && q.prev == 0x00) && decide (q.pos.toNat = 0)
  | .rxPid f _ => !(f && q.prev == 0x00) && decide (q.pos.toNat = 1)
  | .rxIgnore f _ => !(f && q.prev == 0x00) && decide (11 ≤ q.pos.toNat)
  | .rxChk f _ =>
    !(f && q.prev == 0x00) && decide (2 ≤ q.pos.toNat) && decide (q.pos.toNat ≤ 10)
      && (decide (q.pos.toNat = 2 + q.wDlc) || decide (q.pos.toNat = 10))
  | .rxData f _ =>
    !(f && q.prev == 0x00) && decide (2 ≤ q.pos.toNat) && decide (q.pos.toNat ≤ 9)
      && decide (q.pos.toNat ≠ 2 + q.wDlc)
  | .dlc2 _ => true
  | .dlc4 _ => true
  | .dlc8 _ => true
  | .chkClassicLegacy _ => true
  | .chkClassicDiag _ => true
  | .chkEnhanced id => decide (id.toNat < 0x3C)

/-! ### Words given as numbers -/

/-- The format of a table word that is `nbits` wide: up to 8 bits a lookup word, above that the input word. ID6
and SW7 words of the same bits are told apart by their row's mask: the selector's bit 6 and the five fixed bits
of CHK_CLASSIC_DIAG name SW7, anything else ID6. Log 10. -/
def tableWord (nbits w : Nat) : Except DecodeError OpWord :=
  if nbits ≤ 8 then
    if 0x80 ≤ w then .error .widerThanLookupWord
    else if 0x3C ≤ w then .ok (.sw (BitVec.ofNat 7 w))
    else .ok (.id (BitVec.ofNat 6 w))
  else if 0x800 ≤ w then .error .widerThanInputWord
  else .ok (.iw (BitVec.ofNat 11 w))

/-- The sequencing state a table word is read in: the position of reset (R32), and a zero byte before, which is
the condition of the one row with F fixed (RX_SYNC). Log 10. -/
def tableSeq : Seq := ⟨11, 0x00, 2⟩

/-- The decoder with its rejections by name: a number too wide for the table's formats is refused, any other
is read. -/
def decodeNumber (nbits w : Nat) : Except DecodeError Instr :=
  match tableWord nbits w with
  | .ok ow => .ok (decode ow tableSeq)
  | .error e => .error e

/-- The instruction this decoder reads from a word numbered as spec/opcode_table.json numbers it. -/
def decodeTableWord (nbits w : Nat) : Option Instr :=
  match decodeNumber nbits w with
  | .ok i => some i
  | .error _ => none

end Sys2Proof
end

