-- ==== Sys2Proof/Machine/State.lean ====
section
/-! DEFINITION. The state of the block as plain data (10_state.md), the levels on its input ports, and the state
after reset (R32, R119). -/

namespace Sys2Proof.Machine

/-- The levels on the input ports at one rising edge (R29): `iw` is the input word {rst, rx_valid, rx_ferr,
rx_data} of R49, beside it `legacy_mode` and `now`, `TS_W` bits. The environment chooses them (R115). Log 1. -/
structure Pins where
  iw : BitVec 11
  legacyMode : Bool
  now : Timestamp
deriving DecidableEq, Repr

/-- No reset and no byte. In an idle cycle neither `legacy_mode` nor `now` is read (R49, R73). Log 2. -/
def Pins.idle : Pins := ⟨0, false, 0⟩

/-- The two checksum schemes (R88). -/
inductive Scheme where
  | classic
  | enhanced
deriving DecidableEq, Repr

/-- What the checksum validator shows: the scheme, and whether the sum is 0xFF (R92). -/
structure CheckResult where
  scheme : Scheme
  ok : Bool
deriving DecidableEq, Repr

/-- A word put to one of the two combinational lookups (R14, R53, R54). Log 3. -/
inductive LookupWord where
  | id (w : BitVec 6)
  | sw (w : BitVec 7)
deriving DecidableEq, Repr

/-- Nothing stops the block: "No exceptions, traps or halts" (R105, R112), so there is no fault to name. -/
inductive Fault where
deriving DecidableEq, Repr

/-- Why a step has no meaning. -/
inductive Refusal where
  /-- The instruction has no meaning yet. Raised by exec's refused arms alone (there are none); safe. -/
  | notModelled (mnemonic : String)
deriving DecidableEq, Repr

/-- The state: the eight registers of R16, the levels on the input ports (log 1), and the model's own fields for
the combinational rows of the opcode table (log 3). -/
structure State where
  /-- `pos` (R19). -/
  pos : Pos
  /-- `prev` (R20). -/
  prev : Byte
  /-- `raw[0..10]`, the WorkingFrame (R17). -/
  raw : Slots
  /-- `cfg_legacy` (R21). -/
  cfgLegacy : Bool
  /-- `vraw[0..10]`, the VerifiedFrame (R22). -/
  vraw : Slots
  /-- `v_valid` (R23). -/
  vValid : Bool
  /-- `last_ts`, `TS_W` bits (R25). -/
  lastTs : Timestamp
  /-- `out_event` (R26). -/
  outEvent : Code
  /-- The port levels that the next clock cycle samples. Log 1. -/
  pins : Pins
  /-- The port levels of the cycles after that, oldest first. Log 1. -/
  pending : List Pins
  /-- A word put to a combinational lookup, answered by the next step without a clock edge. Log 3. -/
  probe : Option LookupWord
  /-- The length the DLC lookup showed when last asked. Log 3. -/
  dlcOut : Option Nat
  /-- What the checksum lookup showed when last asked. Log 3. -/
  chkOut : Option CheckResult
deriving DecidableEq, Repr

/-- Every slot 0x00 (R32). -/
def zeroSlots : Slots := Vector.replicate 11 0x00

/-- The state after a reset cycle in which `legacy_mode` was `legacy` (R32, R119), with idle input ports. -/
def State.resetWith (legacy : Bool) : State where
  pos := 11
  prev := 0xFF
  raw := zeroSlots
  cfgLegacy := legacy
  vraw := zeroSlots
  vValid := false
  lastTs := 0
  outEvent := 0
  pins := Pins.idle
  pending := []
  probe := none
  dlcOut := none
  chkOut := none

/-- The machine right after reset, with `legacy_mode` = 0 in the reset cycle. DESIGN CHOICE, log 6. -/
def State.reset : State := State.resetWith false

end Sys2Proof.Machine
end

