-- ==== Sys2Proof/Machine/Operands.lean ====
section
/-! DEFINITION. What the operations read: the length lookup (R83), the derived frame fields (R18, R24), and the
bytes and sums of the checksum schemes (R87 to R92). -/

namespace Sys2Proof.Machine

/-- R83: the DLC function, total on 6-bit identifiers. -/
def dlc (id : Ident) : Nat :=
  if id.toNat ≤ 0x1F then 2
  else if id.toNat ≤ 0x2F then 4
  else 8

/-- R13: `SlotRead(i)`. -/
def slotRead (v : Slots) (i : Fin 11) : Byte := v[i]

/-! ### Derived WorkingFrame fields, R18 -/

/-- `w_sync := raw[0]`. -/
def State.wSync (s : State) : Byte := s.raw[0]

/-- `w_pid := raw[1]`. -/
def State.wPid (s : State) : Byte := s.raw[1]

/-- `w_id := raw[1][5:0]`. -/
def State.wId (s : State) : Ident := idOf s.wPid

/-- `w_dlc := DLC(w_id)`. -/
def State.wDlc (s : State) : Nat := dlc s.wId

/-- `w_data[k] := raw[2 + k]`. -/
def State.wData (s : State) (k : Fin 8) : Byte := s.raw[2 + k.val]

/-- `w_checksum := raw[10]`. -/
def State.wChecksum (s : State) : Byte := s.raw[10]

/-! ### Derived VerifiedFrame fields, R24 -/

/-- `v_sync := vraw[0]`. -/
def State.vSync (s : State) : Byte := s.vraw[0]

/-- `v_pid := vraw[1]`. -/
def State.vPid (s : State) : Byte := s.vraw[1]

/-- `v_id := vraw[1][5:0]`. -/
def State.vId (s : State) : Ident := idOf s.vPid

/-- `v_dlc := DLC(v_id)`. -/
def State.vDlc (s : State) : Nat := dlc s.vId

/-- `v_data[k] := vraw[2 + k]`. -/
def State.vData (s : State) (k : Fin 8) : Byte := s.vraw[2 + k.val]

/-- `v_checksum := vraw[10]`. -/
def State.vChecksum (s : State) : Byte := s.vraw[10]

/-- The sequencing state `Decode` reads (R31, R51). -/
def State.seq (s : State) : Seq := ⟨s.pos, s.prev, s.wDlc⟩

/-! ### Checksums -/

/-- R11, R87: the fold of `add8` over the list, starting from 0. -/
def sum8 (bytes : List Byte) : Byte := bytes.foldl add8 0

/-- R89: the first `n` payload slots `v[2], …, v[1 + n]`. -/
def payload (v : Slots) (n : Nat) : List Byte := (v.toList.drop Config.dataStart).take n

/-- R88: the scheme for a legacy flag and an identifier. -/
def schemeOf (legacy : Bool) (id : Ident) : Scheme :=
  if legacy = true ∨ 0x3C ≤ id.toNat then .classic else .enhanced

/-- R90, R91: the bytes a scheme covers, the checksum byte left out. -/
def covered (scheme : Scheme) (pid : Byte) (data : List Byte) : List Byte :=
  match scheme with
  | .classic => data
  | .enhanced => pid :: data

/-- R90 `S_classic`, R91 `S_enhanced`: the sum over the covered bytes and the checksum byte `c`. -/
def schemeSum (scheme : Scheme) (pid : Byte) (data : List Byte) (c : Byte) : Byte :=
  sum8 (covered scheme pid data ++ [c])

/-- R92: `ChecksumOK`. The length argument of the rule is the length of `data`. -/
def checksumOk (pid : Byte) (data : List Byte) (c : Byte) (id : Ident) (legacy : Bool) : Bool :=
  schemeSum (schemeOf legacy id) pid data c == 0xFF

/-- R96: the checksum byte a transmitter sends, `0xFF − (sum of the covered bytes mod 256)`. -/
def transmitterChecksum (scheme : Scheme) (pid : Byte) (data : List Byte) : Byte :=
  0xFF - sum8 (covered scheme pid data)

/-- R77, R92: the verdict on the frame in assembly with checksum byte `c`. -/
def State.frameOk (s : State) (c : Byte) : Bool :=
  checksumOk s.wPid (payload s.raw s.wDlc) c s.wId s.cfgLegacy

end Sys2Proof.Machine
end

