-- ==== Sys2Proof/Machine/Ops.lean ====
section
/-! DEFINITION. The shared operations on registers and slots that the rules of 40 to 44 and 70 are written with,
and the sampling of the input ports. There is no exception entry and no return: the block has neither (R112, R113). -/

namespace Sys2Proof.Machine

/-! ### Registers and slots -/

/-- R13 `SlotWrite(i, b)`; slot 11 and above are no storage (R35). -/
def State.writeSlot (s : State) (i : Nat) (b : Byte) : State := { s with raw := s.raw.setIfInBounds i b }

/-- `pos <- p`. -/
def State.setPos (s : State) (p : Pos) : State := { s with pos := p }

/-- R71, step 3: below 11 the byte is stored and the position advances, otherwise neither. -/
def State.storeAndAdvance (s : State) (p1 : Nat) (b : Byte) : State :=
  if p1 < 11 then (s.writeSlot p1 b).setPos (BitVec.ofNat 4 (p1 + 1)) else s.setPos (BitVec.ofNat 4 p1)

/-- R66 and R103: every consumed byte becomes `prev`, and the time on the `now` port becomes `last_ts`. -/
def State.latchByte (s : State) (b : Byte) : State := { s with prev := b, lastTs := s.pins.now }

/-- `out_event <- code` (R26). -/
def State.report (s : State) (code : Code) : State := { s with outEvent := code }

/-- R98: `Publish(c)`. -/
def State.publish (s : State) (c : Byte) : State := { s with vraw := s.raw.set 10 c, vValid := true }

/-- R119: the register values of a reset cycle with `legacy_mode` = `legacy`. -/
def State.loadReset (s : State) (legacy : Bool) : State :=
  { s with
    pos := 11, prev := 0xFF, raw := zeroSlots, cfgLegacy := legacy, vraw := zeroSlots, vValid := false,
    lastTs := 0, outEvent := outcomeNone }

/-! ### The combinational lookups (log 3) -/

/-- The DLC lookup shows the length of `id` (R84); no register is written. -/
def State.showDlc (s : State) (id : Ident) : State := { s with dlcOut := some (dlc id) }

/-- The validator shows scheme and verdict for the frame in `raw`, the length of `id`, and the byte at the
`rx_data` port as checksum byte (R93, R94); no register is written. Log 4. -/
def State.showCheck (s : State) (scheme : Scheme) (id : Ident) : State :=
  { s with
    chkOut := some ⟨scheme, schemeSum scheme s.wPid (payload s.raw (dlc id)) (iwData s.pins.iw) == 0xFF⟩ }

/-! ### Sampling the inputs -/

/-- A lookup word as a word of the opcode table. -/
def LookupWord.toOpWord : LookupWord → OpWord
  | .id w => .id w
  | .sw w => .sw w

/-- The word the next step decodes: a word put to a lookup, else the input word at the ports. -/
def State.fetchWord (s : State) : OpWord :=
  match s.probe with
  | some p => p.toOpWord
  | none => .iw s.pins.iw

/-- The operation of the next step (R51 for a clock cycle). -/
def State.fetch (s : State) : Instr := decode s.fetchWord s.seq

/-- What follows the operation: a lookup is answered without a clock edge; after a clock cycle the next port
levels of the environment are at the ports, idle ones where it gives none. Logs 1 and 2. -/
def State.retire (s : State) : State :=
  match s.probe, s.pending with
  | some _, _ => { s with probe := none }
  | none, [] => { s with pins := Pins.idle }
  | none, p :: ps => { s with pins := p, pending := ps }

/-- The environment drives these port levels, one entry a clock cycle, from the coming cycle on. Log 1. -/
def State.drive (s : State) (stream : List Pins) : State :=
  match stream with
  | [] => { s with pins := Pins.idle, pending := [], probe := none }
  | p :: ps => { s with pins := p, pending := ps, probe := none }

/-- The registers an input word of the opcode table needs to select its own row: a zero byte before for the row
with F fixed, the wait position for the others. Log 10. -/
def State.selectRow (s : State) (i : Instr) : State :=
  match i with
  | .rxSync _ => { s with prev := 0x00 }
  | .rxIgnore _ _ => { s with pos := 11 }
  | _ => s

/-- The state whose next step decodes the given word of the opcode table. Logs 9 and 10. -/
def State.placeWord (s : State) (w : OpWord) : State :=
  match w with
  | .id x => { s with probe := some (.id x) }
  | .sw x => { s with probe := some (.sw x) }
  | .iw x => ({ s with probe := none, pins := { s.pins with iw := x } }).selectRow (decodeIw x tableSeq)

/-- `placeWord` of a word given as a number; a number that is no word changes nothing. -/
def State.placeNumber (s : State) (nbits w : Nat) : State :=
  match tableWord nbits w with
  | .ok ow => s.placeWord ow
  | .error _ => s

end Sys2Proof.Machine
end

