-- ==== Sys2Proof/Machine/Assembler.lean ====
section
/-! DEFINITION. FrameAssembler (41_assembler.md): the operations of R73 to R78, and the read-cycle states of R79.
Each operation has its rule's pseudocode; which of them a cycle performs is Decode's choice (R51). Log 12.
The framing-error flag has no effect here (R52, R64). -/

namespace Sys2Proof.Machine

/-- IDLE, R73. -/
def execIdle (s : State) : Host.Outcome State Fault Refusal := .next (s.report outcomeNone)

/-- RX_SLOT0, R74. -/
def execRxSlot0 (_f : Bool) (b : Byte) (s : State) : Host.Outcome State Fault Refusal :=
  .next (((s.storeAndAdvance Config.syncSlot b).latchByte b).report outcomeNone)

/-- RX_PID, R75. The identifier and the length follow from slot 1 in later cycles (R18, R69). -/
def execRxPid (_f : Bool) (b : Byte) (s : State) : Host.Outcome State Fault Refusal :=
  .next (((s.storeAndAdvance Config.pidSlot b).latchByte b).report outcomeNone)

/-- RX_IGNORE, R78. -/
def execRxIgnore (_f : Bool) (b : Byte) (s : State) : Host.Outcome State Fault Refusal :=
  .next ((s.latchByte b).report outcomeNone)

/-- RX_CHK, R77: the byte is the checksum byte; on a pass the frame is published (R98), on a failure nothing is
(R97). The verdict and the published slots are read before the edge (R12, R68). -/
def execRxChk (_f : Bool) (b : Byte) (s : State) : Host.Outcome State Fault Refusal :=
  let judged := if s.frameOk b = true then s.publish b else s
  .next (((judged.storeAndAdvance Config.chkSlot b).latchByte b).report (outcomeOf (s.frameOk b)))

/-- RX_DATA, R76: the byte goes to the slot the position names. -/
def execRxData (_f : Bool) (b : Byte) (s : State) : Host.Outcome State Fault Refusal :=
  .next (((s.storeAndAdvance s.pos.toNat b).latchByte b).report outcomeNone)

/-- The four states of the read cycle (R79). -/
inductive ReadState where
  | waitSync
  | readingPid
  | readingData
  | readingChecksum
deriving DecidableEq, Repr

/-- R79: the state a position names, given the length of the frame in assembly. Position 0 and positions between
the length test and the checksum slot, which no run reaches (R33), have no name there. -/
def State.readState (s : State) : Option ReadState :=
  if 11 ≤ s.pos.toNat then some .waitSync
  else if s.pos.toNat = 1 then some .readingPid
  else if s.pos.toNat = 2 + s.wDlc then some .readingChecksum
  else if 2 ≤ s.pos.toNat ∧ s.pos.toNat < 2 + s.wDlc then some .readingData
  else none

end Sys2Proof.Machine
end

