-- ==== Sys2Proof/Machine/ChecksumValidator.lean ====
section
/-! DEFINITION. ChecksumValidator (43_checksum.md): the rows CHK_CLASSIC_LEGACY, CHK_CLASSIC_DIAG and CHK_ENHANCED.
They are combinational: the verdict reaches a register only through RX_CHK (R77, R93). What they show is the
model's field chkOut (logs 3 and 4). -/

namespace Sys2Proof.Machine

/-- CHK_CLASSIC_LEGACY, R93. -/
def execChkClassicLegacy (id : Ident) (s : State) : Host.Outcome State Fault Refusal :=
  .next (s.showCheck .classic id)

/-- CHK_CLASSIC_DIAG, R93. -/
def execChkClassicDiag (id : Ident) (s : State) : Host.Outcome State Fault Refusal :=
  .next (s.showCheck .classic id)

/-- CHK_ENHANCED, R94. -/
def execChkEnhanced (id : Ident) (s : State) : Host.Outcome State Fault Refusal :=
  .next (s.showCheck .enhanced id)

end Sys2Proof.Machine
end

