-- ==== Sys2Proof/Machine/DlcResolver.lean ====
section
/-! DEFINITION. DLCResolver (42_dlc_resolver.md): the rows DLC_2, DLC_4 and DLC_8, "`dlc := DLC(id)` (rule R83);
combinational, no register written" (R84). What the lookup shows is the model's field dlcOut (log 3). -/

namespace Sys2Proof.Machine

/-- DLC_2, R84. -/
def execDlc2 (id : Ident) (s : State) : Host.Outcome State Fault Refusal := .next (s.showDlc id)

/-- DLC_4, R84. -/
def execDlc4 (id : Ident) (s : State) : Host.Outcome State Fault Refusal := .next (s.showDlc id)

/-- DLC_8, R84. -/
def execDlc8 (id : Ident) (s : State) : Host.Outcome State Fault Refusal := .next (s.showDlc id)

end Sys2Proof.Machine
end

