-- ==== Sys2Proof/Machine/FrameSync.lean ====
section
/-! DEFINITION. FrameSync (40_framesync.md): the RX_SYNC operation. -/

namespace Sys2Proof.Machine

/-- RX_SYNC, R63: the byte is stored as the sync byte, whatever the position was (R62), and clears nothing (R67). -/
def execRxSync (b : Byte) (s : State) : Host.Outcome State Fault Refusal :=
  .next (((s.storeAndAdvance Config.syncSlot b).latchByte b).report outcomeNone)

end Sys2Proof.Machine
end

