-- ==== Sys2Proof/Machine/ResetOp.lean ====
section
/-! DEFINITION. RESET (70_reset_and_hazards.md R119). -/

namespace Sys2Proof.Machine

/-- RESET, R119: every register takes its reset value, `cfg_legacy` the level of `legacy_mode`; a byte presented
in the same cycle is dropped (R111). -/
def execReset (s : State) : Host.Outcome State Fault Refusal := .next (s.loadReset s.pins.legacyMode)

end Sys2Proof.Machine
end

