-- ==== Sys2Proof/Machine/Dispatch.lean ====
section
/-! DEFINITION. One arm per operation. -/

namespace Sys2Proof.Machine

def exec (i : Instr) (s : State) : Host.Outcome State Fault Refusal :=
  match i with
  | .reset => Sys2Proof.Machine.execReset s
  | .idle => Sys2Proof.Machine.execIdle s
  | .rxSync b => Sys2Proof.Machine.execRxSync b s
  | .rxSlot0 f b => Sys2Proof.Machine.execRxSlot0 f b s
  | .rxPid f b => Sys2Proof.Machine.execRxPid f b s
  | .rxIgnore f b => Sys2Proof.Machine.execRxIgnore f b s
  | .rxChk f b => Sys2Proof.Machine.execRxChk f b s
  | .rxData f b => Sys2Proof.Machine.execRxData f b s
  | .dlc2 id => Sys2Proof.Machine.execDlc2 id s
  | .dlc4 id => Sys2Proof.Machine.execDlc4 id s
  | .dlc8 id => Sys2Proof.Machine.execDlc8 id s
  | .chkClassicLegacy id => Sys2Proof.Machine.execChkClassicLegacy id s
  | .chkClassicDiag id => Sys2Proof.Machine.execChkClassicDiag id s
  | .chkEnhanced id => Sys2Proof.Machine.execChkEnhanced id s

end Sys2Proof.Machine
end

