-- ==== Sys2Proof/Machine/Step.lean ====
section
/-! DEFINITION. One step: the operation the decode selects, then the next port levels. A step with no lookup asked
for is one clock cycle, which is one `read()` call when rst = 0 (R12, R100). -/

namespace Sys2Proof.Machine

/-- One step (R12, R51, R68). -/
def step (s : State) : Host.Outcome State Fault Refusal :=
  match exec s.fetch s with
  | .next t => .next t.retire
  | .fault r => .fault r
  | .refused r => .refused r

/-- The state whose next step runs the opcode table's word `w`. Logs 9 and 10. -/
def State.withFetchWord (s : State) (nbits w : Nat) : State := s.placeNumber nbits w

end Sys2Proof.Machine
end

