-- ==== Sys2Proof/Machine/Outputs.lean ====
section
/-! DEFINITION. The output ports (R30), their layout (R56), and the public operations of the source as readings of
them (R99, R100, R103). Reading them changes no state (R42): they are functions of the state. -/

namespace Sys2Proof.Machine

/-- The VerifiedFrame port group, what `getData()` returns (R99). -/
structure FramePorts where
  vfValid : Bool
  vfSync : Byte
  vfPid : Byte
  vfId : BitVec 6
  vfDlc : BitVec 4
  vfData : BitVec 64
  vfChecksum : Byte
deriving DecidableEq, Repr

/-- All output ports (R30). -/
structure OutputPorts where
  frame : FramePorts
  lastByteTs : Timestamp
  event : Code
  frameVerified : Bool
  frameRejected : Bool
deriving DecidableEq, Repr

/-- R56: `{vraw[9], vraw[8], …, vraw[2]}`, payload byte k in lane k. -/
def State.vfData (s : State) : BitVec 64 :=
  s.vraw[9] ++ s.vraw[8] ++ s.vraw[7] ++ s.vraw[6] ++ s.vraw[5] ++ s.vraw[4] ++ s.vraw[3] ++ s.vraw[2]

/-- `getData()`, R99. -/
def State.getData (s : State) : FramePorts where
  vfValid := s.vValid
  vfSync := s.vSync
  vfPid := s.vPid
  vfId := s.vId
  vfDlc := BitVec.ofNat 4 s.vDlc
  vfData := s.vfData
  vfChecksum := s.vChecksum

/-- `getTimestampOfLastByte()`, R30, R103. -/
def State.getTimestampOfLastByte (s : State) : Timestamp := s.lastTs

/-- The result of the `read()` that the previous cycle was, port frame_verified (R57, R100). -/
def State.frameVerified (s : State) : Bool := s.outEvent == outcomeVerified

/-- Port frame_rejected (R30, R107). -/
def State.frameRejected (s : State) : Bool := s.outEvent == outcomeRejected

/-- R30. -/
def State.outputs (s : State) : OutputPorts where
  frame := s.getData
  lastByteTs := s.getTimestampOfLastByte
  event := s.outEvent
  frameVerified := s.frameVerified
  frameRejected := s.frameRejected

end Sys2Proof.Machine
end

