-- ==== Sys2Proof/Machine/ReadCycle.lean ====
section
/-! DEFINITION. The whole cycle as R68 gives it, line by line, beside the operations. It is not called by step: R51
says that the operation rules give the same next state, and an obligation states that. -/

namespace Sys2Proof.Machine

/-- R68 `Step(IW, now)` for a cycle with rst = 0. Every name on the right is a value before the edge (R12). -/
def readCycle (iw : BitVec 11) (now : Timestamp) (s : State) : State :=
  if iwValid iw = false then { s with outEvent := 0b00 }
  else
    let b := iwData iw
    let p0 := if syncDetected (iwFerr iw) s.prev = true then 0 else s.pos.toNat
    -- step 1, R69
    let id := if p0 = 1 then idOf b else idOf s.raw[1]
    let n := dlc id
    -- step 2, R70
    let p1 := if p0 = 2 + n then p0 + (8 - n) else p0
    -- step 3, R71
    let raw' := if p1 < 11 then s.raw.setIfInBounds p1 b else s.raw
    let p2 := if p1 < 11 then p1 + 1 else p1
    -- step 4, R72
    let ok := checksumOk s.raw[1] (payload s.raw n) b id s.cfgLegacy
    { s with
      raw := raw'
      vraw := if p1 = 10 ∧ ok = true then s.raw.set 10 b else s.vraw
      vValid := if p1 = 10 ∧ ok = true then true else s.vValid
      outEvent := if p1 = 10 then (if ok = true then 0b01 else 0b10) else 0b00
      pos := BitVec.ofNat 4 p2
      prev := b
      lastTs := now }

/-- A clock cycle in full: R119 when rst = 1, R68 otherwise. -/
def cycle (p : Pins) (s : State) : State :=
  if iwRst p.iw = true then s.loadReset p.legacyMode else readCycle p.iw p.now s

end Sys2Proof.Machine
end

