-- ==== Sys2Proof/Machine/Stream.lean ====
section
/-! DEFINITION. The stream form of R60: input streams written one cycle a line, their input words, the `@T` prefix,
and the expansions hdr, data, frame.e and frame.c. -/

namespace Sys2Proof.Machine

/-- A line (R60). -/
inductive Line where
  /-- `rst` and `rst L`: a reset cycle with the given level of legacy_mode. -/
  | rst (legacy : Bool)
  /-- `idle`. -/
  | idle
  /-- `b XX`. -/
  | byte (b : Byte)
  /-- `bf XX`. -/
  | byteFerr (b : Byte)
deriving DecidableEq, Repr

/-- A line with its `@T` prefix, if it has one: a decimal number (R60). -/
structure TimedLine where
  stamp : Option Nat
  line : Line
deriving DecidableEq, Repr

/-- The line's input word (R60). -/
def Line.word : Line → BitVec 11
  | .rst _ => 0x400
  | .idle => 0x000
  | .byte b => 0x200 ||| b.setWidth 11
  | .byteFerr b => 0x300 ||| b.setWidth 11

/-- The level of `legacy_mode` in the line's cycle; only a reset cycle reads it (R123), elsewhere it is 0. Log 13. -/
def Line.legacy : Line → Bool
  | .rst l => l
  | .idle => false
  | .byte _ => false
  | .byteFerr _ => false

/-- The number the line drives `now` with in cycle `n`: "absent means `now` is the cycle number" (R60). -/
def TimedLine.time (n : Nat) (l : TimedLine) : Nat :=
  match l.stamp with
  | some t => t
  | none => n

/-- The port levels of the line in cycle `n`. A time that needs more than `TS_W` bits keeps its low ones. Log 5. -/
def TimedLine.pins (n : Nat) (l : TimedLine) : Pins :=
  ⟨l.line.word, l.line.legacy, BitVec.ofNat Config.tsWidth (l.time n)⟩

/-- The port levels of a stream whose first line is cycle `n`. -/
def streamFrom (n : Nat) : List TimedLine → List Pins
  | [] => []
  | l :: ls => l.pins n :: streamFrom (n + 1) ls

/-- Lines without a time prefix. -/
def plain (ls : List Line) : List TimedLine := ls.map (fun l => ⟨none, l⟩)

/-- `data D0 … Dn`. -/
def dataLines (ds : List Byte) : List Line := ds.map Line.byte

/-- `hdr PP`: the zero byte, the framing-error-marked sync byte, the PID byte. -/
def hdrLines (pp : Byte) : List Line := [.byte 0x00, .byteFerr 0x55, .byte pp]

/-- `frame.e PP D0 …`: CC = 0xFF - sum8([PP, D0, …]). -/
def frameEnhanced (pp : Byte) (ds : List Byte) : List Line :=
  hdrLines pp ++ dataLines ds ++ [.byte (0xFF - sum8 (pp :: ds))]

/-- `frame.c PP D0 …`: CC = 0xFF - sum8([D0, …]). -/
def frameClassic (pp : Byte) (ds : List Byte) : List Line :=
  hdrLines pp ++ dataLines ds ++ [.byte (0xFF - sum8 ds)]

end Sys2Proof.Machine
end

