-- ==== Sys2Proof/Safety.lean ====
section
/-! DEFINITION. What holds of the block's registers in every state a run from reset reaches (R33, R76, R79, R23, R40).
There is no unsafe run to exclude: no step stops (R105). -/

namespace Sys2Proof.Machine

/-- R33: at clock edges `pos` is 1 to 11; R76 (1) and R79: while a payload is read it has not passed the length. -/
abbrev State.posInv (s : State) : Prop :=
  s.pos.toNat = 1 ∨ s.pos.toNat = 11 ∨ (2 ≤ s.pos.toNat ∧ s.pos.toNat ≤ 2 + s.wDlc)

/-- A frame in the given slots passes its checksum, slot 10 taken as the checksum byte (R92). -/
def slotsOk (v : Slots) (legacy : Bool) : Bool :=
  checksumOk v[1] (payload v (dlc (idOf v[1]))) v[10] (idOf v[1]) legacy

/-- R23: the VerifiedFrame is valid and passes its checksum under the configured scheme, or it is the reset
contents. -/
abbrev State.verifiedInv (s : State) : Prop :=
  if s.vValid = true then slotsOk s.vraw s.cfgLegacy = true else s.vraw = zeroSlots

/-- R26, R33, R109: the outcome code is never `11`; VERIFIED comes with the frame just published and REJECTED with
a frame in `raw` that fails its checksum, both in the wait state. -/
abbrev State.eventInv (s : State) : Prop :=
  s.outEvent = outcomeNone ∨
  (s.outEvent = outcomeVerified ∧ s.vValid = true ∧ s.vraw = s.raw ∧ s.pos = 11) ∨
  (s.outEvent = outcomeRejected ∧ slotsOk s.raw s.cfgLegacy = false ∧ s.pos = 11)

/-- The invariant of the block. -/
structure State.Inv (s : State) : Prop where
  position : s.posInv
  verified : s.verifiedInv
  event : s.eventInv

/-! ### What a cycle's inputs are, in the terms statements use -/

/-- The coming step is a reset cycle (R49, R119). -/
abbrev State.resetting (s : State) : Prop := s.probe = none ∧ iwRst s.pins.iw = true

/-- The coming step is a cycle with no byte (R49, R73). -/
abbrev State.quiet (s : State) : Prop := s.probe = none ∧ iwRst s.pins.iw = false ∧ iwValid s.pins.iw = false

/-- The coming step consumes the byte `b` with framing-error flag `f` (R15 "consume", R49). -/
abbrev State.receives (s : State) (f : Bool) (b : Byte) : Prop :=
  s.probe = none ∧ iwRst s.pins.iw = false ∧ iwValid s.pins.iw = true ∧ iwFerr s.pins.iw = f ∧
    iwData s.pins.iw = b

/-- Port levels that present the byte `b` with framing-error flag `f` (R49), at time `now`. -/
abbrev Pins.presents (p : Pins) (f : Bool) (b : Byte) : Prop :=
  iwRst p.iw = false ∧ iwValid p.iw = true ∧ iwFerr p.iw = f ∧ iwData p.iw = b

/-- Port levels of a cycle with neither reset nor byte. -/
abbrev Pins.quiet (p : Pins) : Prop := iwRst p.iw = false ∧ iwValid p.iw = false

/-- The VerifiedFrame registers are the same (R22, R23). -/
abbrev State.sameVerified (s t : State) : Prop :=
  (∀ j : Fin 11, slotRead t.vraw j = slotRead s.vraw j) ∧ t.vValid = s.vValid

/-- Everything no byte may change: the configuration (R21), the environment's data (log 1), and the model's own
fields for the lookups (log 3). -/
abbrev State.sameSurroundings (s t : State) : Prop :=
  t.cfgLegacy = s.cfgLegacy ∧ t.pins = s.pins ∧ t.pending = s.pending ∧ t.probe = s.probe ∧
    t.dlcOut = s.dlcOut ∧ t.chkOut = s.chkOut

/-- A cycle with these levels changes more than the outcome code: it resets or consumes a byte. -/
def Pins.acts (p : Pins) : Bool := iwRst p.iw || iwValid p.iw

end Sys2Proof.Machine
end

