-- ==== Sys2Proof/Certificates/Slice0/Obligations.lean ====
section
/-! DEFINITION. The statements for the provers. Each says in its docstring which rule of spec/ it formalises, or,
where it rests on an inference of the spec or on a choice of the model, which passage or log entry. -/

open Sys2Proof Sys2Proof.Machine

/-! ### The operations of a clock cycle: when each is performed, and the whole next state -/

/-- R119. The reset values are the decisions D4 to D9 that the rule states. -/
def Obligations.ResetCycleLoadsResetValues : Prop :=
  ∀ s : State, s.resetting →
    s.fetch = .reset ∧
    exec .reset s = .next { s with
      pos := 11, prev := 0xFF, raw := Vector.replicate 11 0x00, cfgLegacy := s.pins.legacyMode,
      vraw := Vector.replicate 11 0x00, vValid := false, lastTs := 0, outEvent := 0b00 }

/-- R73. -/
def Obligations.IdleCycleOnlyClearsOutcome : Prop :=
  ∀ s : State, s.quiet → s.fetch = .idle ∧ exec .idle s = .next { s with outEvent := 0b00 }

/-- R61: the sync predicate reads the framing-error flag and the previous byte only. -/
def Obligations.SyncIsFramingErrorAfterZero : Prop :=
  ∀ (s : State) (f : Bool) (b : Byte), s.receives f b →
    ((∃ x, s.fetch = .rxSync x) ↔ f = true ∧ s.prev = 0x00)

/-- R63: whatever the position, and nothing else is written. -/
def Obligations.SyncByteStartsFrame : Prop :=
  ∀ (s : State) (b : Byte), s.receives true b → s.prev = 0x00 →
    s.fetch = .rxSync b ∧
    exec (.rxSync b) s = .next { s with
      raw := s.raw.set 0 b, pos := 1, prev := b, lastTs := s.pins.now, outEvent := 0b00 }

/-- R74, the operation of the unreachable position 0. -/
def Obligations.SlotZeroByteIsStoredAsSync : Prop :=
  ∀ (s : State) (f : Bool) (b : Byte), s.receives f b → ¬ (f = true ∧ s.prev = 0x00) → s.pos.toNat = 0 →
    s.fetch = .rxSlot0 f b ∧
    exec (.rxSlot0 f b) s = .next { s with
      raw := s.raw.set 0 b, pos := 1, prev := b, lastTs := s.pins.now, outEvent := 0b00 }

/-- R75: the byte is stored whole, and identifier and length follow from its low six bits. -/
def Obligations.PidByteSetsIdentifierAndLength : Prop :=
  ∀ (s : State) (f : Bool) (b : Byte), s.receives f b → ¬ (f = true ∧ s.prev = 0x00) → s.pos.toNat = 1 →
    s.fetch = .rxPid f b ∧
    ∃ t, exec (.rxPid f b) s = .next t ∧
      t = { s with raw := s.raw.set 1 b, pos := 2, prev := b, lastTs := s.pins.now, outEvent := 0b00 } ∧
      t.wId = b.extractLsb' 0 6 ∧ t.wDlc = dlc (b.extractLsb' 0 6)

/-- R76, at the unreachable positions past the length too. -/
def Obligations.DataByteGoesToPositionSlot : Prop :=
  ∀ (s : State) (f : Bool) (b : Byte), s.receives f b → ¬ (f = true ∧ s.prev = 0x00) →
    2 ≤ s.pos.toNat → s.pos.toNat ≤ 9 → s.pos.toNat ≠ 2 + s.wDlc →
    s.fetch = .rxData f b ∧
    exec (.rxData f b) s = .next { s with
      raw := s.raw.setIfInBounds s.pos.toNat b, pos := s.pos + 1, prev := b, lastTs := s.pins.now,
      outEvent := 0b00 }

/-- R77: verdict, publish and the jump to slot 10, at pos = 10 with a shorter length too. -/
def Obligations.ChecksumByteVerifiesOrRejects : Prop :=
  ∀ (s : State) (f : Bool) (b : Byte), s.receives f b → ¬ (f = true ∧ s.prev = 0x00) →
    2 ≤ s.pos.toNat → (s.pos.toNat = 2 + s.wDlc ∨ s.pos.toNat = 10) →
    s.fetch = .rxChk f b ∧
    (checksumOk s.raw[1] (payload s.raw s.wDlc) b s.wId s.cfgLegacy = true →
      exec (.rxChk f b) s = .next { s with
        raw := s.raw.set 10 b, vraw := s.raw.set 10 b, vValid := true, pos := 11, prev := b,
        lastTs := s.pins.now, outEvent := 0b01 }) ∧
    (checksumOk s.raw[1] (payload s.raw s.wDlc) b s.wId s.cfgLegacy = false →
      exec (.rxChk f b) s = .next { s with
        raw := s.raw.set 10 b, pos := 11, prev := b, lastTs := s.pins.now, outEvent := 0b10 })

/-- R78: positions 11 and, though unreachable, 12 to 15. -/
def Obligations.IgnoredByteKeepsPositionAndSlots : Prop :=
  ∀ (s : State) (f : Bool) (b : Byte), s.receives f b → ¬ (f = true ∧ s.prev = 0x00) → 11 ≤ s.pos.toNat →
    s.fetch = .rxIgnore f b ∧
    exec (.rxIgnore f b) s = .next { s with prev := b, lastTs := s.pins.now, outEvent := 0b00 }

/-! ### The combinational rows -/

/-- 30_encoding.md section 3 and 42_dlc_resolver.md: each DLC row is selected by its range and shows its length, and
writes no register. The field that shows it is the model's own (log 3). -/
def Obligations.DlcRowsShowTheirLength : Prop :=
  ∀ (id : Ident) (q : Seq) (s : State),
    (id.toNat ≤ 0x1F → decode (.id id) q = .dlc2 id ∧ exec (.dlc2 id) s = .next { s with dlcOut := some 2 }) ∧
    (0x20 ≤ id.toNat → id.toNat ≤ 0x2F →
      decode (.id id) q = .dlc4 id ∧ exec (.dlc4 id) s = .next { s with dlcOut := some 4 }) ∧
    (0x30 ≤ id.toNat → decode (.id id) q = .dlc8 id ∧ exec (.dlc8 id) s = .next { s with dlcOut := some 8 })

/-- 43_checksum.md, the two classic rows: the sum leaves the PID byte out, and no register is written. The field
that shows the verdict, and the byte port as the source of the checksum byte, are the model's (logs 3 and 4). -/
def Obligations.ClassicRowsShowPayloadSum : Prop :=
  ∀ (id : Ident) (q : Seq) (s t : State),
    t = { s with
      chkOut := some ⟨.classic, sum8 (payload s.raw (dlc id) ++ [iwData s.pins.iw]) == 0xFF⟩ } →
    (decode (.sw (0x40#7 ||| id.setWidth 7)) q = .chkClassicLegacy id ∧
      exec (.chkClassicLegacy id) s = .next t) ∧
    (0x3C ≤ id.toNat → decode (.sw (id.setWidth 7)) q = .chkClassicDiag id ∧
      exec (.chkClassicDiag id) s = .next t)

/-- 43_checksum.md, the enhanced row: the whole PID byte is summed, and no register is written. Logs 3 and 4 as
for the classic rows. -/
def Obligations.EnhancedRowShowsPidAndPayloadSum : Prop :=
  ∀ (id : Ident) (q : Seq) (s : State), id.toNat ≤ 0x3B →
    decode (.sw (id.setWidth 7)) q = .chkEnhanced id ∧
    exec (.chkEnhanced id) s = .next { s with
      chkOut := some ⟨.enhanced, sum8 (s.raw[1] :: payload s.raw (dlc id) ++ [iwData s.pins.iw]) == 0xFF⟩ }

/-- 43_checksum.md, "Flags written: through rule R77": the outcome of a checksum byte is the verdict of the row
that the selector {cfg_legacy, id} of the frame selects. Rests on logs 3 and 4. -/
def Obligations.OutcomeIsVerdictOfSelectedRow : Prop :=
  ∀ (s : State) (f : Bool) (b : Byte), s.receives f b → s.fetch = .rxChk f b →
    ∃ t u r, exec (.rxChk f b) s = .next t ∧
      exec (decode (.sw (mkSw s.cfgLegacy s.wId)) s.seq) s = .next u ∧ u.chkOut = some r ∧
      r.scheme = schemeOf s.cfgLegacy s.wId ∧ t.outEvent = (if r.ok = true then 0b01 else 0b10)

/-- R88 to R92 on the frame in assembly: the verdict is one sum modulo 256 over exactly the first w_dlc payload
bytes, the checksum byte, and the PID byte when the scheme is enhanced. -/
def Obligations.VerdictIsModularSum : Prop :=
  ∀ (s : State) (c : Byte),
    s.frameOk c = true ↔
      ((if s.cfgLegacy = true ∨ 0x3C ≤ s.wId.toNat then 0 else s.wPid.toNat)
        + (∑ k : Fin 8, if k.val < s.wDlc then (s.wData k).toNat else 0) + c.toNat) % 256 = 0xFF

/-- 43_checksum.md section on the transmitter relation: exactly one checksum byte passes. -/
def Obligations.ExactlyOneChecksumBytePasses : Prop :=
  ∀ (pid : Byte) (data : List Byte) (c : Byte) (id : Ident) (legacy : Bool),
    checksumOk pid data c id legacy = true ↔ c = transmitterChecksum (schemeOf legacy id) pid data

/-- 95_test_vectors.md section 1.3: one payload byte changed in a passing frame makes it fail. -/
def Obligations.MutatedPayloadByteFails : Prop :=
  ∀ (pid : Byte) (data : List Byte) (c : Byte) (id : Ident) (legacy : Bool) (k : Nat) (x : Byte)
    (h : k < data.length), x ≠ data[k] → checksumOk pid data c id legacy = true →
    checksumOk pid (data.set k x) c id legacy = false

/-! ### Frames of the operations -/

/-- 20_memory.md section 2: a storing operation changes the one slot its rule names, and the VerifiedFrame only
by a passing check. It speaks of exec in every state, those that do not select the operation included (log 12), and
its clauses on the environment's data and on the lookup fields are about fields of the model (logs 1 and 3). -/
def Obligations.StoringOperationsKeepTheRest : Prop :=
  ∀ (s t : State) (f : Bool) (b : Byte) (j : Fin 11),
    (exec (.rxSync b) s = .next t →
      (j.val ≠ Config.syncSlot → slotRead t.raw j = slotRead s.raw j) ∧ s.sameVerified t ∧ s.sameSurroundings t) ∧
    (exec (.rxSlot0 f b) s = .next t →
      (j.val ≠ Config.syncSlot → slotRead t.raw j = slotRead s.raw j) ∧ s.sameVerified t ∧ s.sameSurroundings t) ∧
    (exec (.rxPid f b) s = .next t →
      (j.val ≠ Config.pidSlot → slotRead t.raw j = slotRead s.raw j) ∧ s.sameVerified t ∧ s.sameSurroundings t) ∧
    (exec (.rxData f b) s = .next t →
      (j.val ≠ s.pos.toNat → slotRead t.raw j = slotRead s.raw j) ∧ s.sameVerified t ∧ s.sameSurroundings t) ∧
    (exec (.rxChk f b) s = .next t →
      (j.val ≠ Config.chkSlot → slotRead t.raw j = slotRead s.raw j) ∧
      (s.frameOk b = false → s.sameVerified t) ∧ s.sameSurroundings t)

/-- 20_memory.md section 2: IDLE, RX_IGNORE and the lookups store to no slot; the lookups write no register. It
speaks of exec in every state and for every identifier, those that do not select the operation included (log 12),
and its clauses on pins, pending, probe, dlcOut and chkOut are about fields of the model (logs 1 and 3). -/
def Obligations.NonStoringOperationsKeepTheRest : Prop :=
  ∀ (s t : State) (i : Instr) (f : Bool) (b : Byte) (id : Ident) (j : Fin 11),
    i = .idle ∨ i = .rxIgnore f b ∨ i = .dlc2 id ∨ i = .dlc4 id ∨ i = .dlc8 id ∨ i = .chkClassicLegacy id ∨
      i = .chkClassicDiag id ∨ i = .chkEnhanced id →
    exec i s = .next t →
    slotRead t.raw j = slotRead s.raw j ∧ s.sameVerified t ∧ t.pos = s.pos ∧ t.cfgLegacy = s.cfgLegacy ∧
    t.pins = s.pins ∧ t.pending = s.pending ∧ t.probe = s.probe ∧
    (i ≠ .rxIgnore f b → t.prev = s.prev ∧ t.lastTs = s.lastTs) ∧
    (i = .idle ∨ i = .rxIgnore f b ∨ t.outEvent = s.outEvent) ∧
    (i = .chkClassicLegacy id ∨ i = .chkClassicDiag id ∨ i = .chkEnhanced id ∨ t.chkOut = s.chkOut) ∧
    (i = .dlc2 id ∨ i = .dlc4 id ∨ i = .dlc8 id ∨ t.dlcOut = s.dlcOut)

/-! ### Decode, encode, step -/

/-- Words written out from the patterns of spec/opcode_table.json and R60, each with the operation it stands for. -/
def Obligations.WrittenWordsDecode : Prop :=
  decode (.iw 0b10000000000) ⟨5, 0x00, 2⟩ = .reset ∧
  decode (.iw 0b00100000000) ⟨5, 0x00, 2⟩ = .idle ∧
  decode (.iw 0b01101010101) ⟨11, 0x00, 2⟩ = .rxSync 0x55 ∧
  decode (.iw 0b01101010101) ⟨11, 0x7E, 2⟩ = .rxIgnore true 0x55 ∧
  decode (.iw 0b01001010000) ⟨1, 0x55, 2⟩ = .rxPid false 0x50 ∧
  decode (.iw 0b01000000001) ⟨2, 0x50, 2⟩ = .rxData false 0x01 ∧
  decode (.iw 0b01010101100) ⟨4, 0x02, 2⟩ = .rxChk false 0xAC ∧
  decode (.iw 0b01001010101) ⟨0, 0x12, 2⟩ = .rxSlot0 false 0x55 ∧
  decode (.id 0b101111) ⟨11, 0xFF, 2⟩ = .dlc4 0x2F ∧
  decode (.sw 0b0111101) ⟨11, 0xFF, 2⟩ = .chkClassicDiag 0x3D

/-- 30_encoding.md sections 2 and 3: no operand bit is lost, for every operation in every sequencing state that
selects it. -/
def Obligations.DecodeOfEncodeIsInstruction : Prop :=
  ∀ (i : Instr) (q : Seq), i.wf = true → i.cond q = true → decode (encode i) q = i

/-- 30_encoding.md sections 1 to 3: what a word decodes to is well formed, its row's pattern and condition hold, and
it encodes to that word again, up to the bits R50 calls ignored. -/
def Obligations.EncodeOfDecodeIsWord : Prop :=
  ∀ (w : OpWord) (q : Seq),
    (decode w q).wf = true ∧ (decode w q).cond q = true ∧ (decode w q).row.admits w = true ∧
    (decode w q ≠ .reset → decode w q ≠ .idle → encode (decode w q) = w)

/-- The model's step (logs 1 to 3): the decoded operation, then either the lookup is answered, or the next port
levels of the environment stand at the ports, idle ones where it gives none. -/
def Obligations.StepRunsDecodedInstruction : Prop :=
  ∀ (s t : State) (i : Instr), decode s.fetchWord s.seq = i → exec i s = .next t →
    (∀ p, s.probe = some p → step s = .next { t with probe := none }) ∧
    (s.probe = none → s.pending = [] → step s = .next { t with pins := Pins.idle }) ∧
    (∀ p ps, s.probe = none → s.pending = p :: ps → step s = .next { t with pins := p, pending := ps })

/-- Log 10: a word of the opcode table, placed in any state, is what the next step decodes. -/
def Obligations.PlacedTableWordIsFetched : Prop :=
  ∀ (s : State) (nbits w : Nat) (i : Instr),
    decodeTableWord nbits w = some i → (s.withFetchWord nbits w).fetch = i

/-! ### Rules about every cycle -/

/-- R68: the operation a clock cycle selects has the effect of the one `Step` of the rule, in every state, the
unreachable positions included; a reset cycle has R119's. -/
def Obligations.OperationsEqualReadCycleStep : Prop :=
  ∀ s : State, s.probe = none → exec s.fetch s = .next (cycle s.pins s)

/-- R105: no state and no input stops the block, and from every state a zero byte and then a framing-error byte
resume decoding. -/
def Obligations.NothingStopsAndZeroThenErrorResumes : Prop :=
  (∀ s : State, ∃ t, step s = .next t) ∧
  ∀ (s t u : State) (f : Bool) (b : Byte), s.receives f 0x00 → step s = .next t → t.receives true b →
    step t = .next u → u.readState = some .readingPid

/-- 41_assembler.md, "Recovery": the same across any number of cycles without a byte. -/
def Obligations.RecoveryAcrossIdleGap : Prop :=
  ∀ (s : State) (z y : Pins) (gap : List Pins) (f : Bool) (b : Byte),
    z.presents f 0x00 → (∀ p ∈ gap, p.quiet) → y.presents true b →
    ∃ t, Host.Core.run core (gap.length + 2) (s.drive (z :: (gap ++ [y]))) = .next t ∧
      t.readState = some .readingPid ∧ t.wSync = b

/-- R123: the configuration follows `legacy_mode` in reset cycles, and in every other cycle neither changes it nor
lets the level of `legacy_mode` make any difference. -/
def Obligations.LegacyModeReadOnlyInReset : Prop :=
  (∀ s t : State, s.resetting → step s = .next t → t.cfgLegacy = s.pins.legacyMode) ∧
  (∀ s t : State, ¬ s.resetting → step s = .next t → t.cfgLegacy = s.cfgLegacy) ∧
  (∀ (s : State) (l : Bool), s.probe = none → iwRst s.pins.iw = false →
    step { s with pins := { s.pins with legacyMode := l } } = step s)

/-- R66: every consumed byte becomes `prev`; a cycle with no byte does not write it, and a reset cycle writes the
reset value. -/
def Obligations.PrevIsLastConsumedByte : Prop :=
  ∀ s t : State, step s = .next t →
    (∀ f b, s.receives f b → t.prev = b) ∧ (s.quiet → t.prev = s.prev) ∧ (s.resetting → t.prev = 0xFF)

/-- R103: every consumed byte latches `now`, under every operation, and the port shows it; a cycle with no byte
does not write it. -/
def Obligations.TimestampIsThatOfLastConsumedByte : Prop :=
  ∀ s t : State, step s = .next t →
    (∀ f b, s.receives f b → t.lastTs = s.pins.now ∧ t.outputs.lastByteTs = s.pins.now) ∧
    (s.quiet → t.lastTs = s.lastTs)

/-- R109: which outcome code each cycle leaves. -/
def Obligations.OutcomeCodeOfEveryCycle : Prop :=
  ∀ s t : State, s.probe = none → step s = .next t →
    (t.outEvent = 0b01 ↔ ∃ f b, s.fetch = .rxChk f b ∧ s.frameOk b = true) ∧
    (t.outEvent = 0b10 ↔ ∃ f b, s.fetch = .rxChk f b ∧ s.frameOk b = false) ∧
    (t.outEvent = 0b00 ↔ ∀ f b, s.fetch ≠ .rxChk f b)

/-- R98: a passing check copies every slot, stale ones too, with the checksum byte of the cycle in slot 10, and no
other cycle but reset writes the VerifiedFrame. -/
def Obligations.VerifiedFrameWrittenOnlyByPublish : Prop :=
  ∀ s t : State, step s = .next t →
    (∀ f b, s.receives f b → s.fetch = .rxChk f b → s.frameOk b = true →
      (∀ j : Fin 11, slotRead t.vraw j = if j.val = 10 then b else slotRead s.raw j) ∧ t.vValid = true ∧
        t.outEvent = 0b01) ∧
    (¬ s.resetting → t.vraw ≠ s.vraw ∨ t.vValid ≠ s.vValid →
      ∃ f b, s.fetch = .rxChk f b ∧ s.frameOk b = true)

/-- R97: a failing check publishes nothing, keeps the rejected frame in `raw`, waits, and reports REJECTED. -/
def Obligations.RejectedFrameIsNotPublished : Prop :=
  ∀ (s t : State) (f : Bool) (b : Byte), s.receives f b → s.fetch = .rxChk f b → s.frameOk b = false →
    step s = .next t →
    t.vraw = s.vraw ∧ t.vValid = s.vValid ∧
    (∀ j : Fin 11, slotRead t.raw j = if j.val = 10 then b else slotRead s.raw j) ∧
    t.pos = 11 ∧ t.outEvent = 0b10

/-- R64: a framing error that no zero byte precedes makes no difference at all. -/
def Obligations.FramingErrorWithoutZeroIsOrdinary : Prop :=
  ∀ (s : State) (b : Byte), s.receives true b → s.prev ≠ 0x00 →
    step s = step { s with pins := { s.pins with iw := mkIw false true false b } }

/-- 10_state.md, "Only the predicate `prev == 0x00` is ever read": another previous byte that is zero in the same
cases leaves the next state the same, but for the register itself where it is kept. -/
def Obligations.PrevMattersOnlyByBeingZero : Prop :=
  ∀ (s t : State) (p : Byte), (s.prev = 0x00 ↔ p = 0x00) → step s = .next t →
    step { s with prev := p } = .next t ∨
      (t.prev = s.prev ∧ step { s with prev := p } = .next { t with prev := p })

/-- 42_dlc_resolver.md, "When the length takes effect": the length of the frame in assembly changes with a stored
PID byte and with reset, in no other step. -/
def Obligations.LengthChangesOnlyWithPidByte : Prop :=
  ∀ s t : State, step s = .next t →
    (∀ f b, s.fetch = .rxPid f b → t.wDlc = dlc (b.extractLsb' 0 6)) ∧
    ((∀ f b, s.fetch ≠ .rxPid f b) → s.fetch ≠ .reset → t.wDlc = s.wDlc)

/-- 41_assembler.md, the table and transitions of the read cycle, from states that the invariant admits. -/
def Obligations.ReadCycleTransitions : Prop :=
  ∀ s t : State, s.Inv → step s = .next t →
    (∃ r, s.readState = some r) ∧
    (s.quiet → t.readState = s.readState) ∧
    (∀ f b, s.receives f b →
      (f = true ∧ s.prev = 0x00 → t.readState = some .readingPid) ∧
      (¬ (f = true ∧ s.prev = 0x00) →
        (s.readState = some .waitSync → t.readState = some .waitSync) ∧
        (s.readState = some .readingPid → t.readState = some .readingData) ∧
        (s.readState = some .readingData →
          t.readState = some (if s.pos.toNat + 1 = 2 + s.wDlc then .readingChecksum else .readingData)) ∧
        (s.readState = some .readingChecksum →
          t.readState = some .waitSync ∧ (t.outEvent = 0b01 ∨ t.outEvent = 0b10))))

/-- The model's own lookup fields (log 3) reach no register: in a clock cycle their values make no difference, and
answering a lookup leaves every register and port level alone. -/
def Obligations.LookupFieldsReachNoRegister : Prop :=
  (∀ (s t : State) (d : Option Nat) (c : Option CheckResult), s.probe = none → step s = .next t →
    step { s with dlcOut := d, chkOut := c } = .next { t with dlcOut := d, chkOut := c }) ∧
  (∀ (s t : State) (p : LookupWord), s.probe = some p → step s = .next t →
    { t with probe := s.probe, dlcOut := s.dlcOut, chkOut := s.chkOut } = s)

/-! ### Output ports -/

/-- R56: the lanes of vf_data, the length in binary, the low six bits of the PID, and the whole bytes. -/
def Obligations.VerifiedFramePortLayout : Prop :=
  ∀ s : State,
    (∀ k : Fin 8, s.getData.vfData.extractLsb' (8 * k.val) 8 = s.vData k) ∧
    (s.getData.vfDlc = 0b0010 ∨ s.getData.vfDlc = 0b0100 ∨ s.getData.vfDlc = 0b1000) ∧
    s.getData.vfDlc.toNat = s.vDlc ∧
    s.getData.vfId = s.vraw[1].extractLsb' 0 6 ∧
    s.getData.vfPid = s.vraw[1] ∧ s.getData.vfSync = s.vraw[0] ∧ s.getData.vfChecksum = s.vraw[10]

/-- R102: what the VerifiedFrame ports show after a reset cycle. -/
def Obligations.PortsAfterResetShowNoFrame : Prop :=
  ∀ s t : State, s.resetting → step s = .next t → t.getData = ⟨false, 0x00, 0x00, 0, 2, 0, 0x00⟩

/-- 10_state.md section 7, "all output strobes 0" after reset, which the spec marks derived, and the other outputs
that are no part of the VerifiedFrame. -/
def Obligations.StrobesAfterResetAreLow : Prop :=
  ∀ s t : State, s.resetting → step s = .next t →
    t.outputs.frameVerified = false ∧ t.outputs.frameRejected = false ∧ t.outputs.event = 0b00 ∧
    t.outputs.lastByteTs = 0

/-- 70_reset_and_hazards.md, "State after reset", which the spec marks derived: the first consumed byte after a
reset cycle is never a sync, however many cycles without a byte come between. -/
def Obligations.FirstByteAfterResetIsIgnored : Prop :=
  ∀ (s : State) (x y : Pins) (gap : List Pins) (f : Bool) (b : Byte),
    iwRst x.iw = true → (∀ p ∈ gap, p.quiet) → y.presents f b →
    ∃ t, Host.Core.run core (gap.length + 1) (s.drive (x :: (gap ++ [y]))) = .next t ∧
      t.receives f b ∧ t.fetch = .rxIgnore f b

/-! ### Invariants and whole runs -/

/-- A reset cycle leads from every state, every power-up state among them (log 8), into the invariant; and the
fixed states that stand for "right after reset" meet it: State.resetWith for either level of legacy_mode, with idle
ports and nothing pending (log 2), and State.reset with the level 0 (log 6). -/
def Obligations.InvariantHoldsAfterReset : Prop :=
  (∀ s t : State, s.resetting → step s = .next t → t.Inv) ∧
  State.reset.Inv ∧ ∀ legacy, (State.resetWith legacy).Inv

/-- 10_state.md and 41_assembler.md: the position stays a slot of the frame in assembly or the wait state, every
frame shown valid passes its checksum under the configured scheme, and the outcome code is never `11`. -/
def Obligations.StepKeepsInvariant : Prop :=
  ∀ s t : State, s.Inv → step s = .next t → t.Inv

/-- 44_frame_store.md, "Timestamp", for a whole input stream: after it the port `last_byte_ts` shows the time of the
last cycle that consumed a byte, 0 where a reset cycle came later, and what it showed before where neither came.
The last clause is the model's reading of R60's times (log 5): one that fits `TS_W` bits stands at the port whole. -/
def Obligations.PortShowsTimeOfLastByteOfStream : Prop :=
  (∀ (s : State) (l : List Pins),
    ∃ t, Host.Core.run core l.length (s.drive l) = .next t ∧
      t.outputs.lastByteTs =
        match (l.filter Pins.acts).getLast? with
        | some p => if iwRst p.iw = true then 0 else p.now
        | none => s.outputs.lastByteTs) ∧
  ∀ (n : Nat) (l : TimedLine), l.time n < 2 ^ Config.tsWidth → (l.pins n).now.toNat = l.time n

/-- 44_frame_store.md, "Idempotence of reads": over any run without a reset in which no cycle reports a verified
frame, the VerifiedFrame ports do not change. -/
def Obligations.VerifiedFrameStableBetweenPublishes : Prop :=
  ∀ (k : Nat) (s t : State), s.probe = none → iwRst s.pins.iw = false →
    (∀ p ∈ s.pending, iwRst p.iw = false) →
    Host.Core.run core k s = .next t →
    (∀ j u, 0 < j → j ≤ k → Host.Core.run core j s = .next u → u.frameVerified = false) →
    t.getData = s.getData

/-- 70_reset_and_hazards.md, "Consumer duty": after a verified frame no other is reported for four cycles. -/
def Obligations.FiveCyclesBetweenPublishes : Prop :=
  ∀ s t : State, s.probe = none → step s = .next t → t.frameVerified = true →
    ∀ k u, 1 ≤ k → k ≤ 4 → Host.Core.run core k t = .next u → u.frameVerified = false

/-- R127: leaving out every cycle with neither reset nor byte changes no register but the outcome code. -/
def Obligations.IdleGapsDoNotMatter : Prop :=
  ∀ (s : State) (l : List Pins),
    ∃ t u, Host.Core.run core l.length (s.drive l) = .next t ∧
      Host.Core.run core (l.filter Pins.acts).length (s.drive (l.filter Pins.acts)) = .next u ∧
      t.pos = u.pos ∧ t.prev = u.prev ∧ t.raw = u.raw ∧ t.cfgLegacy = u.cfgLegacy ∧ t.vraw = u.vraw ∧
      t.vValid = u.vValid ∧ t.lastTs = u.lastTs

/-- 95_test_vectors.md section 1.1, for every state, sync byte, PID byte and payload: after a zero byte, a frame
with the transmitter's checksum byte is verified in its last cycle and in no earlier one, and the ports show it,
with the slots past the payload as they stood before. The times are the stream's cycle numbers (R60, log 5). -/
def Obligations.ValidFrameIsVerifiedExactlyOnce : Prop :=
  ∀ (s : State) (n : Nat) (y pid : Byte) (data : List Byte),
    s.prev = 0x00 → data.length = dlc (idOf pid) →
    let c := transmitterChecksum (schemeOf s.cfgLegacy (idOf pid)) pid data
    let start := s.drive (streamFrom n (plain ([.byteFerr y, .byte pid] ++ dataLines data ++ [.byte c])))
    (∀ k u, 0 < k → k < data.length + 3 → Host.Core.run core k start = .next u → u.frameVerified = false) ∧
    ∃ t, Host.Core.run core (data.length + 3) start = .next t ∧
      t.frameVerified = true ∧ t.getData.vfValid = true ∧ t.getData.vfSync = y ∧ t.getData.vfPid = pid ∧
      t.getData.vfId = idOf pid ∧ t.getData.vfDlc.toNat = data.length ∧ payload t.vraw data.length = data ∧
      t.getData.vfChecksum = c ∧
      t.lastTs = BitVec.ofNat Config.tsWidth (n + data.length + 2) ∧
      (∀ j : Fin 11, 2 + data.length ≤ j.val → j.val < 10 → slotRead t.vraw j = slotRead s.raw j)

/-- 43_checksum.md, "On reject", for every frame with any other checksum byte: rejected in its last cycle, never
verified, and the VerifiedFrame stands as before. -/
def Obligations.WrongChecksumFrameIsRejected : Prop :=
  ∀ (s : State) (n : Nat) (y pid c : Byte) (data : List Byte),
    s.prev = 0x00 → data.length = dlc (idOf pid) →
    c ≠ transmitterChecksum (schemeOf s.cfgLegacy (idOf pid)) pid data →
    let start := s.drive (streamFrom n (plain ([.byteFerr y, .byte pid] ++ dataLines data ++ [.byte c])))
    (∀ k u, 0 < k → k ≤ data.length + 3 → Host.Core.run core k start = .next u → u.frameVerified = false) ∧
    ∃ t, Host.Core.run core (data.length + 3) start = .next t ∧
      t.frameRejected = true ∧ t.getData = s.getData ∧ t.readState = some .waitSync
end

