-- ==== Sys2Proof/Laws/Decode.lean ====
section
/-! SUPPORT. The fields of an input word, and that a word is its fields (R49). -/

namespace Sys2Proof

@[simp] theorem iwRst_mkIw (r v f : Bool) (d : Byte) : iwRst (mkIw r v f d) = r := by
  simp only [iwRst, mkIw, BitVec.getLsbD_append, BitVec.getLsbD_ofBool]
  simp

@[simp] theorem iwValid_mkIw (r v f : Bool) (d : Byte) : iwValid (mkIw r v f d) = v := by
  simp only [iwValid, mkIw, BitVec.getLsbD_append, BitVec.getLsbD_ofBool]
  simp

@[simp] theorem iwFerr_mkIw (r v f : Bool) (d : Byte) : iwFerr (mkIw r v f d) = f := by
  simp only [iwFerr, mkIw, BitVec.getLsbD_append, BitVec.getLsbD_ofBool]
  simp

@[simp] theorem iwData_mkIw (r v f : Bool) (d : Byte) : iwData (mkIw r v f d) = d := by
  unfold iwData mkIw
  apply BitVec.eq_of_getLsbD_eq
  intro i hi
  simp only [BitVec.getLsbD_extractLsb', BitVec.getLsbD_append]
  simp [hi]

theorem mkIw_fields (w : BitVec 11) : mkIw (iwRst w) (iwValid w) (iwFerr w) (iwData w) = w := by
  unfold mkIw iwRst iwValid iwFerr iwData
  apply BitVec.eq_of_getLsbD_eq
  intro i hi
  simp only [BitVec.getLsbD_append, BitVec.getLsbD_extractLsb', BitVec.getLsbD_ofBool]
  have : i < 8 ∨ i = 8 ∨ i = 9 ∨ i = 10 := by omega
  rcases this with h | rfl | rfl | rfl
  · simp [h]
  · simp
  · simp
  · simp

end Sys2Proof
end

