-- ==== Sys2Proof/Laws/State.lean ====
section
/-! SUPPORT. What each shared operation does to each field of State: one lemma per field per operation, true by rfl. -/

namespace Sys2Proof.Machine

variable (s : State)

@[simp] theorem State.writeSlot_pos (i : Nat) (b : Byte) : (s.writeSlot i b).pos = s.pos := rfl
@[simp] theorem State.writeSlot_prev (i : Nat) (b : Byte) : (s.writeSlot i b).prev = s.prev := rfl
@[simp] theorem State.writeSlot_raw (i : Nat) (b : Byte) : (s.writeSlot i b).raw = s.raw.setIfInBounds i b := rfl
@[simp] theorem State.writeSlot_cfgLegacy (i : Nat) (b : Byte) : (s.writeSlot i b).cfgLegacy = s.cfgLegacy := rfl
@[simp] theorem State.writeSlot_vraw (i : Nat) (b : Byte) : (s.writeSlot i b).vraw = s.vraw := rfl
@[simp] theorem State.writeSlot_vValid (i : Nat) (b : Byte) : (s.writeSlot i b).vValid = s.vValid := rfl
@[simp] theorem State.writeSlot_lastTs (i : Nat) (b : Byte) : (s.writeSlot i b).lastTs = s.lastTs := rfl
@[simp] theorem State.writeSlot_outEvent (i : Nat) (b : Byte) : (s.writeSlot i b).outEvent = s.outEvent := rfl
@[simp] theorem State.writeSlot_pins (i : Nat) (b : Byte) : (s.writeSlot i b).pins = s.pins := rfl
@[simp] theorem State.writeSlot_pending (i : Nat) (b : Byte) : (s.writeSlot i b).pending = s.pending := rfl
@[simp] theorem State.writeSlot_probe (i : Nat) (b : Byte) : (s.writeSlot i b).probe = s.probe := rfl
@[simp] theorem State.writeSlot_dlcOut (i : Nat) (b : Byte) : (s.writeSlot i b).dlcOut = s.dlcOut := rfl
@[simp] theorem State.writeSlot_chkOut (i : Nat) (b : Byte) : (s.writeSlot i b).chkOut = s.chkOut := rfl

@[simp] theorem State.setPos_pos (p : Pos) : (s.setPos p).pos = p := rfl
@[simp] theorem State.setPos_prev (p : Pos) : (s.setPos p).prev = s.prev := rfl
@[simp] theorem State.setPos_raw (p : Pos) : (s.setPos p).raw = s.raw := rfl
@[simp] theorem State.setPos_cfgLegacy (p : Pos) : (s.setPos p).cfgLegacy = s.cfgLegacy := rfl
@[simp] theorem State.setPos_vraw (p : Pos) : (s.setPos p).vraw = s.vraw := rfl
@[simp] theorem State.setPos_vValid (p : Pos) : (s.setPos p).vValid = s.vValid := rfl
@[simp] theorem State.setPos_lastTs (p : Pos) : (s.setPos p).lastTs = s.lastTs := rfl
@[simp] theorem State.setPos_outEvent (p : Pos) : (s.setPos p).outEvent = s.outEvent := rfl
@[simp] theorem State.setPos_pins (p : Pos) : (s.setPos p).pins = s.pins := rfl
@[simp] theorem State.setPos_pending (p : Pos) : (s.setPos p).pending = s.pending := rfl
@[simp] theorem State.setPos_probe (p : Pos) : (s.setPos p).probe = s.probe := rfl
@[simp] theorem State.setPos_dlcOut (p : Pos) : (s.setPos p).dlcOut = s.dlcOut := rfl
@[simp] theorem State.setPos_chkOut (p : Pos) : (s.setPos p).chkOut = s.chkOut := rfl

@[simp] theorem State.latchByte_pos (b : Byte) : (s.latchByte b).pos = s.pos := rfl
@[simp] theorem State.latchByte_prev (b : Byte) : (s.latchByte b).prev = b := rfl
@[simp] theorem State.latchByte_raw (b : Byte) : (s.latchByte b).raw = s.raw := rfl
@[simp] theorem State.latchByte_cfgLegacy (b : Byte) : (s.latchByte b).cfgLegacy = s.cfgLegacy := rfl
@[simp] theorem State.latchByte_vraw (b : Byte) : (s.latchByte b).vraw = s.vraw := rfl
@[simp] theorem State.latchByte_vValid (b : Byte) : (s.latchByte b).vValid = s.vValid := rfl
@[simp] theorem State.latchByte_lastTs (b : Byte) : (s.latchByte b).lastTs = s.pins.now := rfl
@[simp] theorem State.latchByte_outEvent (b : Byte) : (s.latchByte b).outEvent = s.outEvent := rfl
@[simp] theorem State.latchByte_pins (b : Byte) : (s.latchByte b).pins = s.pins := rfl
@[simp] theorem State.latchByte_pending (b : Byte) : (s.latchByte b).pending = s.pending := rfl
@[simp] theorem State.latchByte_probe (b : Byte) : (s.latchByte b).probe = s.probe := rfl
@[simp] theorem State.latchByte_dlcOut (b : Byte) : (s.latchByte b).dlcOut = s.dlcOut := rfl
@[simp] theorem State.latchByte_chkOut (b : Byte) : (s.latchByte b).chkOut = s.chkOut := rfl

@[simp] theorem State.report_pos (c : Code) : (s.report c).pos = s.pos := rfl
@[simp] theorem State.report_prev (c : Code) : (s.report c).prev = s.prev := rfl
@[simp] theorem State.report_raw (c : Code) : (s.report c).raw = s.raw := rfl
@[simp] theorem State.report_cfgLegacy (c : Code) : (s.report c).cfgLegacy = s.cfgLegacy := rfl
@[simp] theorem State.report_vraw (c : Code) : (s.report c).vraw = s.vraw := rfl
@[simp] theorem State.report_vValid (c : Code) : (s.report c).vValid = s.vValid := rfl
@[simp] theorem State.report_lastTs (c : Code) : (s.report c).lastTs = s.lastTs := rfl
@[simp] theorem State.report_outEvent (c : Code) : (s.report c).outEvent = c := rfl
@[simp] theorem State.report_pins (c : Code) : (s.report c).pins = s.pins := rfl
@[simp] theorem State.report_pending (c : Code) : (s.report c).pending = s.pending := rfl
@[simp] theorem State.report_probe (c : Code) : (s.report c).probe = s.probe := rfl
@[simp] theorem State.report_dlcOut (c : Code) : (s.report c).dlcOut = s.dlcOut := rfl
@[simp] theorem State.report_chkOut (c : Code) : (s.report c).chkOut = s.chkOut := rfl

@[simp] theorem State.publish_pos (c : Byte) : (s.publish c).pos = s.pos := rfl
@[simp] theorem State.publish_prev (c : Byte) : (s.publish c).prev = s.prev := rfl
@[simp] theorem State.publish_raw (c : Byte) : (s.publish c).raw = s.raw := rfl
@[simp] theorem State.publish_cfgLegacy (c : Byte) : (s.publish c).cfgLegacy = s.cfgLegacy := rfl
@[simp] theorem State.publish_vraw (c : Byte) : (s.publish c).vraw = s.raw.set 10 c := rfl
@[simp] theorem State.publish_vValid (c : Byte) : (s.publish c).vValid = true := rfl
@[simp] theorem State.publish_lastTs (c : Byte) : (s.publish c).lastTs = s.lastTs := rfl
@[simp] theorem State.publish_outEvent (c : Byte) : (s.publish c).outEvent = s.outEvent := rfl
@[simp] theorem State.publish_pins (c : Byte) : (s.publish c).pins = s.pins := rfl
@[simp] theorem State.publish_pending (c : Byte) : (s.publish c).pending = s.pending := rfl
@[simp] theorem State.publish_probe (c : Byte) : (s.publish c).probe = s.probe := rfl
@[simp] theorem State.publish_dlcOut (c : Byte) : (s.publish c).dlcOut = s.dlcOut := rfl
@[simp] theorem State.publish_chkOut (c : Byte) : (s.publish c).chkOut = s.chkOut := rfl

@[simp] theorem State.loadReset_pos (l : Bool) : (s.loadReset l).pos = 11 := rfl
@[simp] theorem State.loadReset_prev (l : Bool) : (s.loadReset l).prev = 0xFF := rfl
@[simp] theorem State.loadReset_raw (l : Bool) : (s.loadReset l).raw = zeroSlots := rfl
@[simp] theorem State.loadReset_cfgLegacy (l : Bool) : (s.loadReset l).cfgLegacy = l := rfl
@[simp] theorem State.loadReset_vraw (l : Bool) : (s.loadReset l).vraw = zeroSlots := rfl
@[simp] theorem State.loadReset_vValid (l : Bool) : (s.loadReset l).vValid = false := rfl
@[simp] theorem State.loadReset_lastTs (l : Bool) : (s.loadReset l).lastTs = 0 := rfl
@[simp] theorem State.loadReset_outEvent (l : Bool) : (s.loadReset l).outEvent = outcomeNone := rfl
@[simp] theorem State.loadReset_pins (l : Bool) : (s.loadReset l).pins = s.pins := rfl
@[simp] theorem State.loadReset_pending (l : Bool) : (s.loadReset l).pending = s.pending := rfl
@[simp] theorem State.loadReset_probe (l : Bool) : (s.loadReset l).probe = s.probe := rfl
@[simp] theorem State.loadReset_dlcOut (l : Bool) : (s.loadReset l).dlcOut = s.dlcOut := rfl
@[simp] theorem State.loadReset_chkOut (l : Bool) : (s.loadReset l).chkOut = s.chkOut := rfl

@[simp] theorem State.showDlc_pos (id : Ident) : (s.showDlc id).pos = s.pos := rfl
@[simp] theorem State.showDlc_prev (id : Ident) : (s.showDlc id).prev = s.prev := rfl
@[simp] theorem State.showDlc_raw (id : Ident) : (s.showDlc id).raw = s.raw := rfl
@[simp] theorem State.showDlc_cfgLegacy (id : Ident) : (s.showDlc id).cfgLegacy = s.cfgLegacy := rfl
@[simp] theorem State.showDlc_vraw (id : Ident) : (s.showDlc id).vraw = s.vraw := rfl
@[simp] theorem State.showDlc_vValid (id : Ident) : (s.showDlc id).vValid = s.vValid := rfl
@[simp] theorem State.showDlc_lastTs (id : Ident) : (s.showDlc id).lastTs = s.lastTs := rfl
@[simp] theorem State.showDlc_outEvent (id : Ident) : (s.showDlc id).outEvent = s.outEvent := rfl
@[simp] theorem State.showDlc_pins (id : Ident) : (s.showDlc id).pins = s.pins := rfl
@[simp] theorem State.showDlc_pending (id : Ident) : (s.showDlc id).pending = s.pending := rfl
@[simp] theorem State.showDlc_probe (id : Ident) : (s.showDlc id).probe = s.probe := rfl
@[simp] theorem State.showDlc_dlcOut (id : Ident) : (s.showDlc id).dlcOut = some (dlc id) := rfl
@[simp] theorem State.showDlc_chkOut (id : Ident) : (s.showDlc id).chkOut = s.chkOut := rfl

@[simp] theorem State.showCheck_pos (c : Scheme) (id : Ident) : (s.showCheck c id).pos = s.pos := rfl
@[simp] theorem State.showCheck_prev (c : Scheme) (id : Ident) : (s.showCheck c id).prev = s.prev := rfl
@[simp] theorem State.showCheck_raw (c : Scheme) (id : Ident) : (s.showCheck c id).raw = s.raw := rfl
@[simp] theorem State.showCheck_cfgLegacy (c : Scheme) (id : Ident) : (s.showCheck c id).cfgLegacy = s.cfgLegacy := rfl
@[simp] theorem State.showCheck_vraw (c : Scheme) (id : Ident) : (s.showCheck c id).vraw = s.vraw := rfl
@[simp] theorem State.showCheck_vValid (c : Scheme) (id : Ident) : (s.showCheck c id).vValid = s.vValid := rfl
@[simp] theorem State.showCheck_lastTs (c : Scheme) (id : Ident) : (s.showCheck c id).lastTs = s.lastTs := rfl
@[simp] theorem State.showCheck_outEvent (c : Scheme) (id : Ident) : (s.showCheck c id).outEvent = s.outEvent := rfl
@[simp] theorem State.showCheck_pins (c : Scheme) (id : Ident) : (s.showCheck c id).pins = s.pins := rfl
@[simp] theorem State.showCheck_pending (c : Scheme) (id : Ident) : (s.showCheck c id).pending = s.pending := rfl
@[simp] theorem State.showCheck_probe (c : Scheme) (id : Ident) : (s.showCheck c id).probe = s.probe := rfl
@[simp] theorem State.showCheck_dlcOut (c : Scheme) (id : Ident) : (s.showCheck c id).dlcOut = s.dlcOut := rfl
@[simp] theorem State.showCheck_chkOut (c : Scheme) (id : Ident) :
    (s.showCheck c id).chkOut =
      some ⟨c, schemeSum c s.wPid (payload s.raw (dlc id)) (iwData s.pins.iw) == 0xFF⟩ := rfl

@[simp] theorem State.storeAndAdvance_prev (p : Nat) (b : Byte) : (s.storeAndAdvance p b).prev = s.prev := by
  unfold State.storeAndAdvance; split <;> rfl
@[simp] theorem State.storeAndAdvance_cfgLegacy (p : Nat) (b : Byte) : (s.storeAndAdvance p b).cfgLegacy = s.cfgLegacy := by
  unfold State.storeAndAdvance; split <;> rfl
@[simp] theorem State.storeAndAdvance_vraw (p : Nat) (b : Byte) : (s.storeAndAdvance p b).vraw = s.vraw := by
  unfold State.storeAndAdvance; split <;> rfl
@[simp] theorem State.storeAndAdvance_vValid (p : Nat) (b : Byte) : (s.storeAndAdvance p b).vValid = s.vValid := by
  unfold State.storeAndAdvance; split <;> rfl
@[simp] theorem State.storeAndAdvance_lastTs (p : Nat) (b : Byte) : (s.storeAndAdvance p b).lastTs = s.lastTs := by
  unfold State.storeAndAdvance; split <;> rfl
@[simp] theorem State.storeAndAdvance_outEvent (p : Nat) (b : Byte) : (s.storeAndAdvance p b).outEvent = s.outEvent := by
  unfold State.storeAndAdvance; split <;> rfl
@[simp] theorem State.storeAndAdvance_pins (p : Nat) (b : Byte) : (s.storeAndAdvance p b).pins = s.pins := by
  unfold State.storeAndAdvance; split <;> rfl
@[simp] theorem State.storeAndAdvance_pending (p : Nat) (b : Byte) : (s.storeAndAdvance p b).pending = s.pending := by
  unfold State.storeAndAdvance; split <;> rfl
@[simp] theorem State.storeAndAdvance_probe (p : Nat) (b : Byte) : (s.storeAndAdvance p b).probe = s.probe := by
  unfold State.storeAndAdvance; split <;> rfl
@[simp] theorem State.storeAndAdvance_dlcOut (p : Nat) (b : Byte) : (s.storeAndAdvance p b).dlcOut = s.dlcOut := by
  unfold State.storeAndAdvance; split <;> rfl
@[simp] theorem State.storeAndAdvance_chkOut (p : Nat) (b : Byte) : (s.storeAndAdvance p b).chkOut = s.chkOut := by
  unfold State.storeAndAdvance; split <;> rfl

theorem State.storeAndAdvance_raw (p : Nat) (b : Byte) :
    (s.storeAndAdvance p b).raw = s.raw.setIfInBounds p b := by
  unfold State.storeAndAdvance
  split
  · rfl
  · ext i hi
    have : ¬ p = i := by omega
    simp [this]

theorem State.storeAndAdvance_pos (p : Nat) (b : Byte) :
    (s.storeAndAdvance p b).pos = BitVec.ofNat 4 (if p < 11 then p + 1 else p) := by
  unfold State.storeAndAdvance; split <;> rfl

@[simp] theorem State.retire_pos : s.retire.pos = s.pos := by unfold State.retire; split <;> rfl
@[simp] theorem State.retire_prev : s.retire.prev = s.prev := by unfold State.retire; split <;> rfl
@[simp] theorem State.retire_raw : s.retire.raw = s.raw := by unfold State.retire; split <;> rfl
@[simp] theorem State.retire_cfgLegacy : s.retire.cfgLegacy = s.cfgLegacy := by unfold State.retire; split <;> rfl
@[simp] theorem State.retire_vraw : s.retire.vraw = s.vraw := by unfold State.retire; split <;> rfl
@[simp] theorem State.retire_vValid : s.retire.vValid = s.vValid := by unfold State.retire; split <;> rfl
@[simp] theorem State.retire_lastTs : s.retire.lastTs = s.lastTs := by unfold State.retire; split <;> rfl
@[simp] theorem State.retire_outEvent : s.retire.outEvent = s.outEvent := by unfold State.retire; split <;> rfl
@[simp] theorem State.retire_dlcOut : s.retire.dlcOut = s.dlcOut := by unfold State.retire; split <;> rfl
@[simp] theorem State.retire_chkOut : s.retire.chkOut = s.chkOut := by unfold State.retire; split <;> rfl

theorem State.retire_of_probe {s : State} {p : LookupWord} (h : s.probe = some p) :
    s.retire = { s with probe := none } := by
  unfold State.retire; simp [h]

theorem State.retire_of_last {s : State} (h : s.probe = none) (hp : s.pending = []) :
    s.retire = { s with pins := Pins.idle } := by
  unfold State.retire; simp [h, hp]

theorem State.retire_of_next {s : State} {p : Pins} {ps : List Pins} (h : s.probe = none) (hp : s.pending = p :: ps) :
    s.retire = { s with pins := p, pending := ps } := by
  unfold State.retire; simp [h, hp]

@[simp] theorem State.retire_probe : s.retire.probe = none := by
  unfold State.retire; split <;> simp_all

end Sys2Proof.Machine
end

