-- ==== Sys2Proof/Laws/Sums.lean ====
section
/-! SUPPORT. Sums of bytes modulo 256 (R11, R87), and the payload slots as a list (R89). -/

namespace Sys2Proof.Machine

@[simp] theorem sum8_nil : sum8 [] = 0 := rfl

theorem foldl_add8 (l : List Byte) (a : Byte) : l.foldl add8 a = a + sum8 l := by
  induction l generalizing a with
  | nil => simp [sum8]
  | cons x l ih =>
    have h0 : sum8 (x :: l) = 0 + x + sum8 l := by rw [sum8, List.foldl_cons, ih]
    rw [List.foldl_cons, ih, h0]
    simp [BitVec.add_assoc]

@[simp] theorem sum8_cons (x : Byte) (l : List Byte) : sum8 (x :: l) = x + sum8 l := by
  rw [sum8, List.foldl_cons, foldl_add8]; simp [add8]

@[simp] theorem sum8_append (l m : List Byte) : sum8 (l ++ m) = sum8 l + sum8 m := by
  induction l with
  | nil => simp
  | cons x l ih => simp [ih, BitVec.add_assoc]

theorem sum8_toNat (l : List Byte) : (sum8 l).toNat = (l.map BitVec.toNat).sum % 256 := by
  induction l with
  | nil => rfl
  | cons x l ih => simp [ih, BitVec.toNat_add]

theorem schemeSum_eq (k : Scheme) (pid : Byte) (data : List Byte) (c : Byte) :
    schemeSum k pid data c = sum8 (covered k pid data) + c := by
  simp [schemeSum]

/-- The payload of a frame, slot by slot. -/
theorem payload_eight (v : Slots) : payload v 8 = [v[2], v[3], v[4], v[5], v[6], v[7], v[8], v[9]] := by
  apply List.ext_getElem
  · simp [payload, Config.dataStart]
  · intro i h1 h2
    simp only [List.length_cons, List.length_nil] at h2
    interval_cases i <;> simp [payload]

theorem payload_take (v : Slots) (n : Nat) (h : n ≤ 8) : payload v n = (payload v 8).take n := by
  simp [payload, List.take_take, Nat.min_eq_left h]

theorem dlc_cases (id : Ident) : dlc id = 2 ∨ dlc id = 4 ∨ dlc id = 8 := by
  unfold dlc; split_ifs <;> simp

theorem dlc_le (id : Ident) : dlc id ≤ 8 := by
  rcases dlc_cases id with h | h | h <;> omega

theorem two_le_dlc (id : Ident) : 2 ≤ dlc id := by
  rcases dlc_cases id with h | h | h <;> omega

end Sys2Proof.Machine
end

