-- ==== Sys2Proof/Laws/Derived.lean ====
section
/-! SUPPORT. The derived fields (R18, R79) and what leaves them alone. -/

namespace Sys2Proof.Machine

theorem wDlc_cases (s : State) : s.wDlc = 2 ∨ s.wDlc = 4 ∨ s.wDlc = 8 := dlc_cases _

/-- The length of the frame in assembly follows slot 1 (R86). -/
theorem wDlc_congr {s t : State} (h : t.raw[1] = s.raw[1]) : t.wDlc = s.wDlc := by
  simp only [State.wDlc, State.wId, State.wPid, h]

@[simp] theorem retire_wDlc (s : State) : s.retire.wDlc = s.wDlc := wDlc_congr (by rw [State.retire_raw])

theorem readState_congr {s t : State} (h1 : t.pos = s.pos) (h2 : t.wDlc = s.wDlc) : t.readState = s.readState := by
  simp only [State.readState, h1, h2]

theorem payload_length (v : Slots) (n : Nat) (h : n ≤ 8) : (payload v n).length = n := by
  simp [payload, Config.dataStart]; omega

/-- The payload reads slots 2 to 9 only (R89). -/
theorem payload_congr {v w : Slots} (n : Nat) (hn : n ≤ 8)
    (h : ∀ i (hi : i < 11), 2 ≤ i → i < 10 → v[i] = w[i]) : payload v n = payload w n := by
  rw [payload_take _ _ hn, payload_take w _ hn, payload_eight, payload_eight,
    h 2 (by omega) (by omega) (by omega), h 3 (by omega) (by omega) (by omega), h 4 (by omega) (by omega) (by omega),
    h 5 (by omega) (by omega) (by omega), h 6 (by omega) (by omega) (by omega), h 7 (by omega) (by omega) (by omega),
    h 8 (by omega) (by omega) (by omega), h 9 (by omega) (by omega) (by omega)]

/-- Storing the checksum byte turns the verdict on the frame into a property of the slots. -/
theorem slotsOk_set_checksum (s : State) (b : Byte) : slotsOk (s.raw.set 10 b) s.cfgLegacy = s.frameOk b := by
  have e1 : (s.raw.set 10 b)[1] = s.raw[1] := by simp
  have e2 : (s.raw.set 10 b)[10] = b := by simp
  simp only [slotsOk, e1, e2, State.frameOk, State.wPid, State.wDlc, State.wId]
  rw [payload_congr (w := s.raw) _ (dlc_le _)]
  intro i hi h1 h2
  have : ¬ 10 = i := by omega
  simp [this]

/-- A cycle leaves the environment's data and the word put to a lookup alone. -/
theorem cycle_environment (p : Pins) (s : State) :
    (cycle p s).pins = s.pins ∧ (cycle p s).pending = s.pending ∧ (cycle p s).probe = s.probe := by
  by_cases hr : iwRst p.iw = true
  · simp only [cycle, hr, if_true]; exact ⟨rfl, rfl, rfl⟩
  · by_cases hv : iwValid p.iw = false
    · simp only [cycle, hr, readCycle, hv, if_true]; exact ⟨rfl, rfl, rfl⟩
    · simp only [cycle, hr, readCycle, hv]; exact ⟨rfl, rfl, rfl⟩

end Sys2Proof.Machine
end

