-- ==== Sys2Proof/Laws/Slots.lean ====
section
/-! SUPPORT. Read after write for the two slot arrays (R13, R35, R38). -/

namespace Sys2Proof.Machine

theorem setIfInBounds_eq_set (v : Slots) (i : Nat) (b : Byte) (h : i < 11) :
    v.setIfInBounds i b = v.set i b h := by
  ext j hj
  simp [Vector.getElem_setIfInBounds, Vector.getElem_set]

/-- R71 below the wait position: the byte is stored and the position advances. -/
theorem State.storeAndAdvance_of_lt (s : State) (p : Nat) (b : Byte) (h : p < 11) :
    s.storeAndAdvance p b = { s with raw := s.raw.set p b h, pos := BitVec.ofNat 4 (p + 1) } := by
  simp only [State.storeAndAdvance, h, if_true, State.writeSlot, State.setPos, setIfInBounds_eq_set]

theorem slotRead_writeSlot (s : State) (i : Nat) (b : Byte) (j : Fin 11) :
    slotRead (s.writeSlot i b).raw j = if i = j.val then b else slotRead s.raw j := by
  simp [slotRead, Vector.getElem_setIfInBounds]

theorem slotRead_storeAndAdvance (s : State) (p : Nat) (b : Byte) (j : Fin 11) :
    slotRead (s.storeAndAdvance p b).raw j = if p = j.val then b else slotRead s.raw j := by
  simp [slotRead, State.storeAndAdvance_raw, Vector.getElem_setIfInBounds]

/-- Slot 11 and above are no storage: a store there changes nothing (R35, R71). -/
theorem writeSlot_out_of_range (s : State) (i : Nat) (b : Byte) (h : 11 ≤ i) : (s.writeSlot i b).raw = s.raw := by
  ext j hj
  have : ¬ i = j := by omega
  simp [this]

/-- R98: the published slots are those of `raw`, with the checksum byte of this cycle in slot 10. -/
theorem slotRead_publish (s : State) (c : Byte) (j : Fin 11) :
    slotRead (s.publish c).vraw j = if j.val = 10 then c else slotRead s.raw j := by
  simp only [slotRead, State.publish_vraw, Fin.getElem_fin, Vector.getElem_set]
  by_cases h : 10 = j.val
  · simp [← h]
  · simp [h, Ne.symm h]

end Sys2Proof.Machine
end

