-- ==== Sys2Proof/Laws/Exec.lean ====
section
/-! SUPPORT. One spec lemma per operation: the next state it gives, field by field. Provers cite these in place of
unfolding a meaning. -/

namespace Sys2Proof.Machine

variable (s : State) (f : Bool) (b : Byte) (id : Ident)

theorem exec_reset : exec .reset s = .next (s.loadReset s.pins.legacyMode) := rfl

theorem exec_idle : exec .idle s = .next { s with outEvent := 0b00 } := rfl

theorem exec_rxSync :
    exec (.rxSync b) s =
      .next { s with raw := s.raw.set 0 b, pos := 1, prev := b, lastTs := s.pins.now, outEvent := 0b00 } := by
  simp only [exec, execRxSync, State.storeAndAdvance_of_lt s _ b (by decide : Config.syncSlot < 11)]
  rfl

theorem exec_rxSlot0 :
    exec (.rxSlot0 f b) s =
      .next { s with raw := s.raw.set 0 b, pos := 1, prev := b, lastTs := s.pins.now, outEvent := 0b00 } := by
  simp only [exec, execRxSlot0, State.storeAndAdvance_of_lt s _ b (by decide : Config.syncSlot < 11)]
  rfl

theorem exec_rxPid :
    exec (.rxPid f b) s =
      .next { s with raw := s.raw.set 1 b, pos := 2, prev := b, lastTs := s.pins.now, outEvent := 0b00 } := by
  simp only [exec, execRxPid, State.storeAndAdvance_of_lt s _ b (by decide : Config.pidSlot < 11)]
  rfl

theorem exec_rxIgnore :
    exec (.rxIgnore f b) s = .next { s with prev := b, lastTs := s.pins.now, outEvent := 0b00 } := rfl

theorem exec_rxChk_pass (h : s.frameOk b = true) :
    exec (.rxChk f b) s =
      .next { s with
        raw := s.raw.set 10 b, vraw := s.raw.set 10 b, vValid := true, pos := 11, prev := b, lastTs := s.pins.now,
        outEvent := 0b01 } := by
  simp only [exec, execRxChk, h, outcomeOf, if_true, State.storeAndAdvance_of_lt _ _ b (by decide : Config.chkSlot < 11)]
  rfl

theorem exec_rxChk_fail (h : s.frameOk b = false) :
    exec (.rxChk f b) s =
      .next { s with
        raw := s.raw.set 10 b, pos := 11, prev := b, lastTs := s.pins.now, outEvent := 0b10 } := by
  simp only [exec, execRxChk, h, outcomeOf, Bool.false_eq_true, if_false,
    State.storeAndAdvance_of_lt _ _ b (by decide : Config.chkSlot < 11)]
  rfl

theorem exec_rxData :
    exec (.rxData f b) s =
      .next { s with
        raw := s.raw.setIfInBounds s.pos.toNat b
        pos := BitVec.ofNat 4 (if s.pos.toNat < 11 then s.pos.toNat + 1 else s.pos.toNat)
        prev := b, lastTs := s.pins.now, outEvent := 0b00 } := by
  simp only [exec, execRxData, State.latchByte, State.report, State.storeAndAdvance_raw, State.storeAndAdvance_pos,
    State.storeAndAdvance_cfgLegacy, State.storeAndAdvance_vraw, State.storeAndAdvance_vValid,
    State.storeAndAdvance_pins, State.storeAndAdvance_pending, State.storeAndAdvance_probe,
    State.storeAndAdvance_dlcOut, State.storeAndAdvance_chkOut, outcomeNone]

theorem exec_dlc2 : exec (.dlc2 id) s = .next { s with dlcOut := some (dlc id) } := rfl
theorem exec_dlc4 : exec (.dlc4 id) s = .next { s with dlcOut := some (dlc id) } := rfl
theorem exec_dlc8 : exec (.dlc8 id) s = .next { s with dlcOut := some (dlc id) } := rfl

theorem exec_chkClassicLegacy : exec (.chkClassicLegacy id) s = .next (s.showCheck .classic id) := rfl
theorem exec_chkClassicDiag : exec (.chkClassicDiag id) s = .next (s.showCheck .classic id) := rfl
theorem exec_chkEnhanced : exec (.chkEnhanced id) s = .next (s.showCheck .enhanced id) := rfl

/-- An operation never touches the environment's data nor the word put to a lookup. -/
theorem exec_environment (i : Instr) (s t : State) (h : exec i s = .next t) :
    t.pins = s.pins ∧ t.pending = s.pending ∧ t.probe = s.probe := by
  cases i with
  | rxData f b => rw [exec_rxData] at h; cases h; exact ⟨rfl, rfl, rfl⟩
  | rxChk f b =>
    by_cases hk : s.frameOk b = true
    · rw [exec_rxChk_pass s f b hk] at h; cases h; exact ⟨rfl, rfl, rfl⟩
    · rw [exec_rxChk_fail s f b (by simpa using hk)] at h; cases h; exact ⟨rfl, rfl, rfl⟩
  | _ => cases h; exact ⟨rfl, rfl, rfl⟩

end Sys2Proof.Machine
end

