-- ==== Sys2Proof/Laws/PerInstr.lean ====
section
/-! SUPPORT. Family EncodesToRow: the word the encoder writes for a well-formed instruction carries the fixed bits
of the instruction's row of spec/opcode_table.json. -/

namespace Sys2Proof.Laws.EncodesToRow

/-- The encoded word of `i` is admitted by the mask and match of `i`'s row. -/
def Statement (i : Instr) : Prop := i.wf = true → i.row.admits (encode i) = true

/-- The fixed bits of the five position rows. -/
theorem receive_bits (f : Bool) (b : Byte) : mkIw false true f b &&& 0x600#11 = 0x200#11 := by
  apply BitVec.eq_of_getLsbD_eq
  intro i hi
  interval_cases i <;>
    simp only [BitVec.getLsbD_and, mkIw, BitVec.getLsbD_append, BitVec.getLsbD_ofBool] <;> simp

/-- The fixed bits of RX_SYNC. -/
theorem sync_bits (b : Byte) : mkIw false true true b &&& 0x700#11 = 0x300#11 := by
  apply BitVec.eq_of_getLsbD_eq
  intro i hi
  interval_cases i <;>
    simp only [BitVec.getLsbD_and, mkIw, BitVec.getLsbD_append, BitVec.getLsbD_ofBool] <;> simp

theorem reset : Statement .reset := fun _ => by decide
theorem idle : Statement .idle := fun _ => by decide
theorem rxSync (b : Byte) : Statement (.rxSync b) := fun _ => beq_iff_eq.mpr (sync_bits b)
theorem rxSlot0 (f : Bool) (b : Byte) : Statement (.rxSlot0 f b) := fun _ => beq_iff_eq.mpr (receive_bits f b)
theorem rxPid (f : Bool) (b : Byte) : Statement (.rxPid f b) := fun _ => beq_iff_eq.mpr (receive_bits f b)
theorem rxIgnore (f : Bool) (b : Byte) : Statement (.rxIgnore f b) := fun _ => beq_iff_eq.mpr (receive_bits f b)
theorem rxChk (f : Bool) (b : Byte) : Statement (.rxChk f b) := fun _ => beq_iff_eq.mpr (receive_bits f b)
theorem rxData (f : Bool) (b : Byte) : Statement (.rxData f b) := fun _ => beq_iff_eq.mpr (receive_bits f b)

theorem dlc2 : ∀ id : Ident, Statement (.dlc2 id) := by unfold Statement; decide
theorem dlc4 : ∀ id : Ident, Statement (.dlc4 id) := by unfold Statement; decide
theorem dlc8 : ∀ id : Ident, Statement (.dlc8 id) := by unfold Statement; decide
theorem chkClassicLegacy : ∀ id : Ident, Statement (.chkClassicLegacy id) := by unfold Statement; decide
theorem chkClassicDiag : ∀ id : Ident, Statement (.chkClassicDiag id) := by unfold Statement; decide
theorem chkEnhanced : ∀ id : Ident, Statement (.chkEnhanced id) := by unfold Statement; decide

end Sys2Proof.Laws.EncodesToRow
end

