-- ==== Sys2Proof/Laws/Run.lean ====
section
/-! SUPPORT. A run of the host's machine, one step at a time. -/

namespace Sys2Proof.Machine

theorem coreRun_succ (M : Host.Core) (k : Nat) (s t : M.State) (h : M.step s = .next t) :
    M.run (k + 1) s = M.run k t := by
  simp only [Host.Core.run, h]

theorem run_succ {s t : State} (k : Nat) (h : step s = .next t) :
    Host.Core.run core (k + 1) s = Host.Core.run core k t :=
  coreRun_succ core k s t h

end Sys2Proof.Machine
end

