-- ==== Sys2Proof/Laws/Step.lean ====
section
/-! SUPPORT. What a step is, said once: which operation a cycle performs (R51), and the step as that operation
followed by the sampling of the next port levels. -/

namespace Sys2Proof.Machine

theorem step_of_exec {s t : State} (h : exec s.fetch s = .next t) : step s = .next t.retire := by
  simp only [step, h]

theorem exec_of_step {s u : State} (h : step s = .next u) : ∃ t, exec s.fetch s = .next t ∧ u = t.retire := by
  unfold step at h
  split at h
  · next t ht => cases h; exact ⟨t, ht, rfl⟩
  · cases h
  · cases h

/-- What a clock cycle performs, by the order of R51. -/
inductive CycleCase (s : State) : Prop where
  | reset (h : s.resetting) (op : s.fetch = .reset)
  | idle (h : s.quiet) (op : s.fetch = .idle)
  | sync (b : Byte) (h : s.receives true b) (z : s.prev = 0) (op : s.fetch = .rxSync b)
  | slot0 (f : Bool) (b : Byte) (h : s.receives f b) (n : syncDetected f s.prev = false) (p : s.pos.toNat = 0)
      (op : s.fetch = .rxSlot0 f b)
  | pid (f : Bool) (b : Byte) (h : s.receives f b) (n : syncDetected f s.prev = false) (p : s.pos.toNat = 1)
      (op : s.fetch = .rxPid f b)
  | ignore (f : Bool) (b : Byte) (h : s.receives f b) (n : syncDetected f s.prev = false) (p : 11 ≤ s.pos.toNat)
      (op : s.fetch = .rxIgnore f b)
  | chk (f : Bool) (b : Byte) (h : s.receives f b) (n : syncDetected f s.prev = false)
      (p : 2 ≤ s.pos.toNat ∧ s.pos.toNat ≤ 10 ∧ (s.pos.toNat = 2 + s.wDlc ∨ s.pos.toNat = 10))
      (op : s.fetch = .rxChk f b)
  | data (f : Bool) (b : Byte) (h : s.receives f b) (n : syncDetected f s.prev = false)
      (p : 2 ≤ s.pos.toNat ∧ s.pos.toNat ≤ 9 ∧ s.pos.toNat ≠ 2 + s.wDlc) (op : s.fetch = .rxData f b)

theorem fetch_of_cycle {s : State} (h : s.probe = none) : s.fetch = decodeIw s.pins.iw s.seq := by
  simp [State.fetch, State.fetchWord, h, decode]

theorem cycle_cases {s : State} (h : s.probe = none) : CycleCase s := by
  have hf := fetch_of_cycle h
  rcases hr : iwRst s.pins.iw with _ | _
  · rcases hv : iwValid s.pins.iw with _ | _
    · exact .idle ⟨h, hr, hv⟩ (by rw [hf]; simp [decodeIw, hr, hv])
    · have hrec : s.receives (iwFerr s.pins.iw) (iwData s.pins.iw) := ⟨h, hr, hv, rfl, rfl⟩
      rcases hs : syncDetected (iwFerr s.pins.iw) s.prev with _ | _
      · have hs' : syncDetected (iwFerr s.pins.iw) s.seq.prev = false := hs
        have e : s.seq.pos = s.pos := rfl
        have e' : s.seq.wDlc = s.wDlc := rfl
        by_cases h0 : s.pos.toNat = 0
        · exact .slot0 _ _ hrec hs h0 (by rw [hf]; simp [decodeIw, hr, hv, hs', e, h0])
        by_cases h1 : s.pos.toNat = 1
        · exact .pid _ _ hrec hs h1 (by rw [hf]; simp [decodeIw, hr, hv, hs', e, h1])
        by_cases h11 : 11 ≤ s.pos.toNat
        · exact .ignore _ _ hrec hs h11 (by rw [hf]; simp [decodeIw, hr, hv, hs', e, h0, h1, h11])
        by_cases hc : s.pos.toNat = 2 + s.wDlc ∨ s.pos.toNat = 10
        · exact .chk _ _ hrec hs ⟨by omega, by omega, hc⟩
            (by rw [hf]; simp only [decodeIw, hr, hv, hs', e, e', h0, h1, h11, hc]; simp)
        · exact .data _ _ hrec hs ⟨by omega, by omega, by omega⟩
            (by rw [hf]; simp only [decodeIw, hr, hv, hs', e, e', h0, h1, h11, hc]; simp)
      · have hf1 : iwFerr s.pins.iw = true := by
          simp only [syncDetected, Bool.and_eq_true] at hs; exact hs.1
        have hz : s.prev = 0 := by
          simp only [syncDetected, Bool.and_eq_true, beq_iff_eq] at hs; exact hs.2
        have hs' : syncDetected (iwFerr s.pins.iw) s.seq.prev = true := hs
        exact .sync _ (hf1 ▸ hrec) hz (by rw [hf]; simp [decodeIw, hr, hv, hs'])
  · exact .reset ⟨h, hr⟩ (by rw [hf]; simp [decodeIw, hr])

/-- Every operation answers a next state. -/
theorem exec_total (i : Instr) (s : State) : ∃ t, exec i s = .next t := by
  cases i <;> exact ⟨_, rfl⟩

/-! ### The three kinds of clock cycle exclude each other -/

theorem receives_unique {s : State} {f g : Bool} {b c : Byte} (h : s.receives f b) (h' : s.receives g c) :
    f = g ∧ b = c :=
  ⟨h.2.2.2.1.symm.trans h'.2.2.2.1, h.2.2.2.2.symm.trans h'.2.2.2.2⟩

theorem not_receives_of_quiet {s : State} {f : Bool} {b : Byte} (h : s.quiet) : ¬ s.receives f b :=
  fun h' => Bool.false_ne_true (h.2.2.symm.trans h'.2.2.1)

theorem not_receives_of_resetting {s : State} {f : Bool} {b : Byte} (h : s.resetting) : ¬ s.receives f b :=
  fun h' => Bool.false_ne_true (h'.2.1.symm.trans h.2)

theorem not_quiet_of_resetting {s : State} (h : s.resetting) : ¬ s.quiet :=
  fun h' => Bool.false_ne_true (h'.2.1.symm.trans h.2)

theorem not_sync_iff {f : Bool} {p : Byte} : ¬ (f = true ∧ p = 0x00) ↔ syncDetected f p = false := by
  cases f <;> simp [syncDetected]

/-- The word a lookup step decodes. -/
theorem fetch_of_lookup {s : State} {p : LookupWord} (h : s.probe = some p) :
    s.fetch = decode p.toOpWord s.seq := by
  simp [State.fetch, State.fetchWord, h]

end Sys2Proof.Machine
end

