-- ==== Sys2Proof/Tests/Slice0.lean ====
section
/-! SUPPORT. Tests: the well-formedness smoke, words written out from the spec's patterns, one or two steps' worth of
expected fields per operation from 95_test_vectors.md, and a witness for the hypotheses of each statement. -/

namespace Sys2Proof.Tests

open Sys2Proof.Machine

/-! ### Well-formedness: each check refuses an ill-formed term -/

theorem test_dlc2_above_range_illformed : (Instr.dlc2 0x20).wf = false := by decide
theorem test_dlc4_below_range_illformed : (Instr.dlc4 0x1F).wf = false := by decide
theorem test_dlc4_above_range_illformed : (Instr.dlc4 0x30).wf = false := by decide
theorem test_dlc8_below_range_illformed : (Instr.dlc8 0x2F).wf = false := by decide
theorem test_diag_below_range_illformed : (Instr.chkClassicDiag 0x3B).wf = false := by decide
theorem test_enhanced_above_range_illformed : (Instr.chkEnhanced 0x3C).wf = false := by decide

/-! ### Decode: words written out bit by bit, R V F DDDDDDDD (R49), id[5:0] (R53), {cfg_legacy, id} (R54) -/

theorem test_decode_reset : decode (.iw 0b10000000000) ⟨4, 0x00, 2⟩ = .reset := by decide
theorem test_decode_reset_drops_byte : decode (.iw 0b11100000000) ⟨4, 0x00, 2⟩ = .reset := by decide
theorem test_decode_idle : decode (.iw 0b00000000000) ⟨4, 0x00, 2⟩ = .idle := by decide
theorem test_decode_idle_ignores_flag : decode (.iw 0b00111111111) ⟨4, 0x00, 2⟩ = .idle := by decide
theorem test_decode_sync : decode (.iw 0b01101010101) ⟨10, 0x00, 8⟩ = .rxSync 0x55 := by decide
theorem test_decode_slot0 : decode (.iw 0b01001010101) ⟨0, 0x12, 2⟩ = .rxSlot0 false 0x55 := by decide
theorem test_decode_pid : decode (.iw 0b01011000001) ⟨1, 0x55, 8⟩ = .rxPid false 0xC1 := by decide
theorem test_decode_pid_with_error : decode (.iw 0b01100111100) ⟨1, 0x12, 2⟩ = .rxPid true 0x3C := by decide
theorem test_decode_data : decode (.iw 0b01000001000) ⟨9, 0x07, 8⟩ = .rxData false 0x08 := by decide
theorem test_decode_chk_short : decode (.iw 0b01010101100) ⟨4, 0x02, 2⟩ = .rxChk false 0xAC := by decide
theorem test_decode_chk_at_ten : decode (.iw 0b01010101100) ⟨10, 0x02, 2⟩ = .rxChk false 0xAC := by decide
theorem test_decode_ignore : decode (.iw 0b01000010010) ⟨13, 0x12, 2⟩ = .rxIgnore false 0x12 := by decide
theorem test_decode_dlc2 : decode (.id 0b011111) ⟨11, 0xFF, 2⟩ = .dlc2 0x1F := by decide
theorem test_decode_dlc4 : decode (.id 0b100000) ⟨11, 0xFF, 2⟩ = .dlc4 0x20 := by decide
theorem test_decode_dlc8 : decode (.id 0b110000) ⟨11, 0xFF, 2⟩ = .dlc8 0x30 := by decide
theorem test_decode_legacy : decode (.sw 0b1111100) ⟨11, 0xFF, 2⟩ = .chkClassicLegacy 0x3C := by decide
theorem test_decode_diag : decode (.sw 0b0111100) ⟨11, 0xFF, 2⟩ = .chkClassicDiag 0x3C := by decide
theorem test_decode_enhanced : decode (.sw 0b0111011) ⟨11, 0xFF, 2⟩ = .chkEnhanced 0x3B := by decide
theorem test_number_too_wide : decodeNumber 16 0x800 = .error .widerThanInputWord := by rfl
theorem test_lookup_too_wide : decodeNumber 8 0x80 = .error .widerThanLookupWord := by rfl

/-! ### The words of the stream notation, R60 and program P1 -/

theorem test_stream_words :
    (frameEnhanced 0x50 [0x01, 0x02]).map Line.word = [0x200, 0x355, 0x250, 0x201, 0x202, 0x2AC] := by decide

theorem test_stream_times : (streamFrom 2 [⟨none, .idle⟩, ⟨some 500, .byte 0x7E⟩]).map Pins.now = [2, 500] := rfl

/-! ### One step: a small state, the input word at its ports, the next state -/

/-- Position, previous byte, slots 0 to 5, and the input word of the coming cycle at time 500. -/
def at' (pos : Pos) (prev : Byte) (b0 b1 b2 b3 b4 b5 : Byte) (iw : BitVec 11) : State :=
  { State.reset with
    pos := pos, prev := prev, raw := #v[b0, b1, b2, b3, b4, b5, 0, 0, 0, 0, 0], pins := ⟨iw, true, 500⟩ }

/-- The state after one step. -/
def after (s : State) : State :=
  match step s with
  | .next t => t
  | .fault r => nomatch r
  | .refused _ => s

/-- A8: a frame of length 2 whose checksum byte AC is due. -/
def readyShort (iw : BitVec 11) : State := at' 4 0x02 0x55 0x50 0x01 0x02 0 0 iw

-- 2.7: `rst L`; and a byte in a reset cycle is dropped.
theorem test_reset_loads_legacy : (after (at' 4 0x00 1 2 3 4 5 6 0x400)).cfgLegacy = true := by decide
theorem test_reset_drops_byte : after (at' 4 0x00 1 2 3 4 5 6 0x700) = State.resetWith true := by decide
-- A1, and 2.1: prev stays.
theorem test_idle_keeps_prev : (after (at' 4 0x00 1 2 3 4 5 6 0x1FF)).prev = 0x00 := by decide
-- A2, A18.
theorem test_sync_from_wait : (after (at' 11 0x00 0 0 0 0 0 0 0x355)).pos = 1 := by decide
theorem test_sync_at_checksum_abandons :
    (after (at' 4 0x00 0x55 0x50 0x01 0x00 0 0 0x333)).outEvent = 0b00 ∧
      (after (at' 4 0x00 0x55 0x50 0x01 0x00 0 0 0x333)).raw[0] = 0x33 := by decide
-- A15.
theorem test_slot0 : (after (at' 0 0x12 0 0 0 0 0 0 0x255)).raw[0] = 0x55 := by decide
-- A4, A5.
theorem test_pid_length_ignores_parity : (after (at' 1 0x55 0 0 0 0 0 0 0x2C1)).wDlc = 2 := by decide
theorem test_pid_with_framing_error : (after (at' 1 0x12 0 0 0 0 0 0 0x33C)).wDlc = 8 := by decide
-- A7, A16.
theorem test_data_last_payload_slot : (after (at' 9 0x07 0x55 0x3C 1 2 3 4 0x208)).raw[9] = 0x08 := by decide
theorem test_data_past_length : (after (at' 5 0x01 0x55 0x50 1 2 3 4 0x299)).raw[5] = 0x99 := by decide
-- A8, A11.
theorem test_chk_pass :
    (after (readyShort 0x2AC)).outEvent = 0b01 ∧
      (after (readyShort 0x2AC)).vraw = #v[0x55, 0x50, 0x01, 0x02, 0, 0, 0, 0, 0, 0, 0xAC] := by decide
theorem test_chk_fail :
    (after (readyShort 0x2AD)).outEvent = 0b10 ∧ (after (readyShort 0x2AD)).vValid = false ∧
      (after (readyShort 0x2AD)).raw[10] = 0xAD := by decide
-- A13, A14.
theorem test_ignore_framing_error : (after (at' 11 0x7E 0 0 0 0 0 0 0x355)).prev = 0x55 := by decide
theorem test_ignore_unreachable_position : (after (at' 13 0x00 0 0 0 0 0 0 0x212)).pos = 13 := by decide
-- 1.2.
theorem test_dlc2_top : (after ((readyShort 0).placeWord (.id 0x1F))).dlcOut = some 2 := by decide
theorem test_dlc4_top : (after ((readyShort 0).placeWord (.id 0x2F))).dlcOut = some 4 := by decide
theorem test_dlc8_bottom : (after ((readyShort 0).placeWord (.id 0x30))).dlcOut = some 8 := by decide
-- K5, K6.
theorem test_legacy_pass :
    (after ((readyShort 0x2FC).placeWord (.sw 0x50))).chkOut = some ⟨.classic, true⟩ := by decide
theorem test_legacy_fail :
    (after ((readyShort 0x2AC).placeWord (.sw 0x50))).chkOut = some ⟨.classic, false⟩ := by decide
-- The classic sum of an eight-byte payload 01 02 03 04 00 00 00 00: C = 0xFF - 0x0A.
theorem test_diag_pass :
    (after ((at' 10 0x00 0x55 0x3C 1 2 3 4 0x2F5).placeWord (.sw 0x3C))).chkOut = some ⟨.classic, true⟩ := by decide
-- K1, K3.
theorem test_enhanced_pass :
    (after ((readyShort 0x2AC).placeWord (.sw 0x10))).chkOut = some ⟨.enhanced, true⟩ := by decide
theorem test_enhanced_fail :
    (after ((readyShort 0x2EC).placeWord (.sw 0x10))).chkOut = some ⟨.enhanced, false⟩ := by decide
-- K7: wrap-around. K10: the parity bits enter the enhanced sum.
theorem test_sum_wraps : schemeSum .classic 0x05 [0xFF, 0xFF] 0x01 = 0xFF := by decide
theorem test_parity_in_enhanced_sum : schemeSum .enhanced 0x01 [0x00, 0x00] 0x3E = 0x3F := by decide
-- 2.6: the ports after A8.
theorem test_ports_after_pass :
    (after (readyShort 0x2AC)).getData = ⟨true, 0x55, 0x50, 0x10, 2, 0x0201, 0xAC⟩ := by decide
theorem test_timestamp : (after (readyShort 0x2AC)).lastTs = 500 := rfl
theorem test_withFetchWord_runs :
    after (State.reset.withFetchWord 16 0x355) =
      { State.reset with raw := #v[0x55, 0, 0, 0, 0, 0, 0, 0, 0, 0, 0], pos := 1, prev := 0x55 } := by decide
theorem test_withFetchWord_sync : (State.reset.withFetchWord 16 0x355).fetch = .rxSync 0x55 := by decide

/-! ### Witnesses: a state and operands that meet the hypotheses of each statement that has any -/

theorem witness_ResetCycleLoadsResetValues : (at' 4 0x00 1 2 3 4 5 6 0x400).resetting := by decide
theorem witness_IdleCycleOnlyClearsOutcome : (at' 4 0x00 1 2 3 4 5 6 0x1FF).quiet := by decide
theorem witness_SyncIsFramingErrorAfterZero : (at' 4 0x00 1 2 3 4 5 6 0x355).receives true 0x55 := by decide
theorem witness_SyncByteStartsFrame :
    (at' 15 0x00 1 2 3 4 5 6 0x355).receives true 0x55 ∧ (at' 15 0x00 1 2 3 4 5 6 0x355).prev = 0x00 := by decide
theorem witness_SlotZeroByteIsStoredAsSync :
    (at' 0 0x12 1 2 3 4 5 6 0x355).receives true 0x55 ∧ ¬ (true = true ∧ (at' 0 0x12 1 2 3 4 5 6 0x355).prev = 0x00) ∧
      (at' 0 0x12 1 2 3 4 5 6 0x355).pos.toNat = 0 := by decide
theorem witness_PidByteSetsIdentifierAndLength :
    (at' 1 0x00 1 2 3 4 5 6 0x2C1).receives false 0xC1 ∧ ¬ (false = true ∧ (at' 1 0x00 1 2 3 4 5 6 0x2C1).prev = 0x00) ∧
      (at' 1 0x00 1 2 3 4 5 6 0x2C1).pos.toNat = 1 := by decide
theorem witness_DataByteGoesToPositionSlot_first :
    (at' 2 0x50 0x55 0x50 0 0 0 0 0x201).receives false 0x01 ∧
      ¬ (false = true ∧ (at' 2 0x50 0x55 0x50 0 0 0 0 0x201).prev = 0x00) ∧
      2 ≤ (at' 2 0x50 0x55 0x50 0 0 0 0 0x201).pos.toNat ∧ (at' 2 0x50 0x55 0x50 0 0 0 0 0x201).pos.toNat ≤ 9 ∧
      (at' 2 0x50 0x55 0x50 0 0 0 0 0x201).pos.toNat ≠ 2 + (at' 2 0x50 0x55 0x50 0 0 0 0 0x201).wDlc := by decide
theorem witness_DataByteGoesToPositionSlot_last :
    (at' 9 0x50 0x55 0x3C 0 0 0 0 0x201).receives false 0x01 ∧
      ¬ (false = true ∧ (at' 9 0x50 0x55 0x3C 0 0 0 0 0x201).prev = 0x00) ∧
      2 ≤ (at' 9 0x50 0x55 0x3C 0 0 0 0 0x201).pos.toNat ∧ (at' 9 0x50 0x55 0x3C 0 0 0 0 0x201).pos.toNat ≤ 9 ∧
      (at' 9 0x50 0x55 0x3C 0 0 0 0 0x201).pos.toNat ≠ 2 + (at' 9 0x50 0x55 0x3C 0 0 0 0 0x201).wDlc := by decide
theorem witness_ChecksumByteVerifiesOrRejects_pass :
    (readyShort 0x2AC).receives false 0xAC ∧ ¬ (false = true ∧ (readyShort 0x2AC).prev = 0x00) ∧
      2 ≤ (readyShort 0x2AC).pos.toNat ∧
      ((readyShort 0x2AC).pos.toNat = 2 + (readyShort 0x2AC).wDlc ∨ (readyShort 0x2AC).pos.toNat = 10) ∧
      checksumOk (readyShort 0x2AC).raw[1] (payload (readyShort 0x2AC).raw (readyShort 0x2AC).wDlc) 0xAC
        (readyShort 0x2AC).wId (readyShort 0x2AC).cfgLegacy = true := by decide
theorem witness_ChecksumByteVerifiesOrRejects_fail :
    (readyShort 0x2AD).receives false 0xAD ∧ ¬ (false = true ∧ (readyShort 0x2AD).prev = 0x00) ∧
      2 ≤ (readyShort 0x2AD).pos.toNat ∧
      ((readyShort 0x2AD).pos.toNat = 2 + (readyShort 0x2AD).wDlc ∨ (readyShort 0x2AD).pos.toNat = 10) ∧
      checksumOk (readyShort 0x2AD).raw[1] (payload (readyShort 0x2AD).raw (readyShort 0x2AD).wDlc) 0xAD
        (readyShort 0x2AD).wId (readyShort 0x2AD).cfgLegacy = false := by decide
theorem witness_IgnoredByteKeepsPositionAndSlots :
    (at' 15 0x12 1 2 3 4 5 6 0x355).receives true 0x55 ∧ ¬ (true = true ∧ (at' 15 0x12 1 2 3 4 5 6 0x355).prev = 0x00) ∧
      11 ≤ (at' 15 0x12 1 2 3 4 5 6 0x355).pos.toNat := by decide
theorem witness_DlcRowsShowTheirLength :
    (0x1F : Ident).toNat ≤ 0x1F ∧ (0x20 ≤ (0x20 : Ident).toNat ∧ (0x2F : Ident).toNat ≤ 0x2F) ∧
      0x30 ≤ (0x30 : Ident).toNat := by decide
theorem witness_ClassicRowsShowPayloadSum : 0x3C ≤ (0x3C : Ident).toNat := by decide
theorem witness_EnhancedRowShowsPidAndPayloadSum : (0x3B : Ident).toNat ≤ 0x3B := by decide
theorem witness_OutcomeIsVerdictOfSelectedRow :
    (readyShort 0x2AC).receives false 0xAC ∧ (readyShort 0x2AC).fetch = .rxChk false 0xAC := by decide
theorem witness_MutatedPayloadByteFails :
    (0x03 : Byte) ≠ [(0x01 : Byte), 0x02][0] ∧ checksumOk 0x50 [0x01, 0x02] 0xAC 0x10 false = true := by decide
theorem witness_StoringOperationsKeepTheRest :
    ∃ t1 t2 t3 t4 t5, exec (.rxSync 0x55) (readyShort 0x2AD) = .next t1 ∧
      exec (.rxSlot0 false 0x55) (readyShort 0x2AD) = .next t2 ∧ exec (.rxPid false 0x55) (readyShort 0x2AD) = .next t3 ∧
      exec (.rxData false 0x55) (readyShort 0x2AD) = .next t4 ∧ exec (.rxChk false 0xAD) (readyShort 0x2AD) = .next t5 ∧
      (readyShort 0x2AD).frameOk 0xAD = false :=
  ⟨_, _, _, _, _, rfl, rfl, rfl, rfl, rfl, by decide⟩
theorem witness_NonStoringOperationsKeepTheRest :
    ∀ i ∈ [Instr.idle, .rxIgnore true 0x55, .dlc2 0x3C, .dlc4 0x3C, .dlc8 0x3C, .chkClassicLegacy 0x3C,
        .chkClassicDiag 0x3C, .chkEnhanced 0x3C],
      (i = .idle ∨ i = .rxIgnore true 0x55 ∨ i = .dlc2 0x3C ∨ i = .dlc4 0x3C ∨ i = .dlc8 0x3C ∨
        i = .chkClassicLegacy 0x3C ∨ i = .chkClassicDiag 0x3C ∨ i = .chkEnhanced 0x3C) ∧
      ∃ t, exec i (readyShort 0x355) = .next t :=
  fun i hi => ⟨by simpa using hi, exec_total i _⟩
theorem witness_DecodeOfEncodeIsInstruction :
    (Instr.rxChk true 0xAC).wf = true ∧ (Instr.rxChk true 0xAC).cond ⟨10, 0x02, 8⟩ = true := by decide
theorem witness_EncodeOfDecodeIsWord :
    decode (.iw 0x2AC) ⟨4, 0x02, 2⟩ ≠ .reset ∧ decode (.iw 0x2AC) ⟨4, 0x02, 2⟩ ≠ .idle := by decide
theorem witness_StepRunsDecodedInstruction_last :
    ∃ t, exec (readyShort 0x2AC).fetch (readyShort 0x2AC) = .next t ∧ (readyShort 0x2AC).probe = none ∧
      (readyShort 0x2AC).pending = [] := ⟨_, rfl, rfl, rfl⟩
theorem witness_StepRunsDecodedInstruction_next :
    ∃ t, exec (State.reset.drive [⟨0, false, 1⟩, ⟨0x200, false, 2⟩]).fetch
        (State.reset.drive [⟨0, false, 1⟩, ⟨0x200, false, 2⟩]) = .next t ∧
      (State.reset.drive [⟨0, false, 1⟩, ⟨0x200, false, 2⟩]).pending = [⟨0x200, false, 2⟩] := ⟨_, rfl, rfl⟩
theorem witness_StepRunsDecodedInstruction_lookup :
    ∃ t, exec (State.reset.placeWord (.id 0x20)).fetch (State.reset.placeWord (.id 0x20)) = .next t ∧
      (State.reset.placeWord (.id 0x20)).probe = some (.id 0x20) := ⟨_, rfl, rfl⟩
theorem witness_PlacedTableWordIsFetched :
    decodeTableWord 16 0x355 = some (.rxSync 0x55) ∧ decodeTableWord 8 0x3C = some (.chkClassicDiag 0x3C) ∧
      decodeTableWord 8 0x3B = some (.dlc8 0x3B) ∧ decodeTableWord 8 0x7F = some (.chkClassicLegacy 0x3F) := by decide
theorem witness_OperationsEqualReadCycleStep : (readyShort 0x2AC).probe = none := rfl
theorem witness_NothingStopsAndZeroThenErrorResumes :
    ∃ s t u, s = State.reset.drive [⟨0x200, false, 1⟩, ⟨0x355, false, 2⟩] ∧ s.receives false 0x00 ∧
      step s = .next t ∧ t.receives true 0x55 ∧ step t = .next u :=
  ⟨_, _, _, rfl, by decide, rfl, by decide, rfl⟩
theorem witness_RecoveryAcrossIdleGap :
    (Pins.mk 0x300 false 1).presents true 0x00 ∧ (∀ p ∈ [Pins.mk 0x1FF true 2], p.quiet) ∧
      (Pins.mk 0x355 false 3).presents true 0x55 := by decide
theorem witness_LegacyModeReadOnlyInReset :
    (∃ t, (at' 4 0 1 2 3 4 5 6 0x400).resetting ∧ step (at' 4 0 1 2 3 4 5 6 0x400) = .next t) ∧
    (∃ t, ¬ (readyShort 0x2AC).resetting ∧ step (readyShort 0x2AC) = .next t) ∧
    (readyShort 0x2AC).probe = none ∧ iwRst (readyShort 0x2AC).pins.iw = false :=
  ⟨⟨_, by decide, rfl⟩, ⟨_, by decide, rfl⟩, rfl, by decide⟩
theorem witness_PrevIsLastConsumedByte :
    (∃ t, step (readyShort 0x2AC) = .next t ∧ (readyShort 0x2AC).receives false 0xAC) ∧
    (∃ t, step (readyShort 0x000) = .next t ∧ (readyShort 0x000).quiet) ∧
    (∃ t, step (readyShort 0x400) = .next t ∧ (readyShort 0x400).resetting) :=
  ⟨⟨_, rfl, by decide⟩, ⟨_, rfl, by decide⟩, ⟨_, rfl, by decide⟩⟩
theorem witness_TimestampIsThatOfLastConsumedByte :
    (∃ t, step (readyShort 0x3AC) = .next t ∧ (readyShort 0x3AC).receives true 0xAC) ∧
    (∃ t, step (readyShort 0x100) = .next t ∧ (readyShort 0x100).quiet) :=
  ⟨⟨_, rfl, by decide⟩, ⟨_, rfl, by decide⟩⟩
theorem witness_OutcomeCodeOfEveryCycle :
    ∃ t, (readyShort 0x2AC).probe = none ∧ step (readyShort 0x2AC) = .next t := ⟨_, rfl, rfl⟩
theorem witness_VerifiedFrameWrittenOnlyByPublish :
    ∃ t, step (readyShort 0x2AC) = .next t ∧ (readyShort 0x2AC).receives false 0xAC ∧
      (readyShort 0x2AC).fetch = .rxChk false 0xAC ∧ (readyShort 0x2AC).frameOk 0xAC = true ∧
      ¬ (readyShort 0x2AC).resetting ∧ t.vValid ≠ (readyShort 0x2AC).vValid :=
  ⟨_, rfl, by decide, by decide, by decide, by decide, by decide⟩
theorem witness_RejectedFrameIsNotPublished :
    ∃ t, (readyShort 0x2AD).receives false 0xAD ∧ (readyShort 0x2AD).fetch = .rxChk false 0xAD ∧
      (readyShort 0x2AD).frameOk 0xAD = false ∧ step (readyShort 0x2AD) = .next t :=
  ⟨_, by decide, by decide, by decide, rfl⟩
theorem witness_FramingErrorWithoutZeroIsOrdinary :
    (readyShort 0x3AC).receives true 0xAC ∧ (readyShort 0x3AC).prev ≠ 0x00 := by decide
theorem witness_PrevMattersOnlyByBeingZero :
    ∃ t, ((readyShort 0x000).prev = 0x00 ↔ (0xFF : Byte) = 0x00) ∧ step (readyShort 0x000) = .next t :=
  ⟨_, by decide, rfl⟩
theorem witness_LengthChangesOnlyWithPidByte :
    (∃ t, step (at' 1 0x55 0 0 0 0 0 0 0x2F0) = .next t ∧
      (at' 1 0x55 0 0 0 0 0 0 0x2F0).fetch = .rxPid false 0xF0) ∧
    (∃ t, step (readyShort 0x2AC) = .next t ∧ (∀ f b, (readyShort 0x2AC).fetch ≠ .rxPid f b) ∧
      (readyShort 0x2AC).fetch ≠ .reset) :=
  ⟨⟨_, rfl, by decide⟩, ⟨_, rfl, by
    have h : (readyShort 0x2AC).fetch = .rxChk false 0xAC := by decide
    intro f b; rw [h]; exact Instr.noConfusion, by decide⟩⟩
theorem witness_ReadCycleTransitions :
    ∃ t, (readyShort 0x2AC).Inv ∧ step (readyShort 0x2AC) = .next t ∧ (readyShort 0x2AC).receives false 0xAC ∧
      (readyShort 0x2AC).readState = some .readingChecksum :=
  ⟨_, ⟨by decide, by decide, by decide⟩, rfl, by decide, by decide⟩
theorem witness_ReadCycleTransitions_data :
    (at' 2 0x50 0x55 0x50 0 0 0 0 0x201).Inv ∧ (at' 2 0x50 0x55 0x50 0 0 0 0 0x201).readState = some .readingData ∧
      (at' 1 0x55 0x55 0 0 0 0 0 0x210).Inv ∧ (at' 1 0x55 0x55 0 0 0 0 0 0x210).readState = some .readingPid ∧
      (at' 11 0x00 0 0 0 0 0 0 0x355).Inv ∧ (at' 11 0x00 0 0 0 0 0 0 0x355).readState = some .waitSync :=
  ⟨⟨by decide, by decide, by decide⟩, by decide, ⟨by decide, by decide, by decide⟩, by decide,
    ⟨by decide, by decide, by decide⟩, by decide⟩
theorem witness_LookupFieldsReachNoRegister :
    (∃ t, (readyShort 0x2AC).probe = none ∧ step (readyShort 0x2AC) = .next t) ∧
    (∃ t, (State.reset.placeWord (.sw 0x3C)).probe = some (.sw 0x3C) ∧
      step (State.reset.placeWord (.sw 0x3C)) = .next t) :=
  ⟨⟨_, rfl, rfl⟩, ⟨_, rfl, rfl⟩⟩
theorem witness_PortsAfterResetShowNoFrame :
    ∃ t, (readyShort 0x7AC).resetting ∧ step (readyShort 0x7AC) = .next t := ⟨_, by decide, rfl⟩
theorem witness_StrobesAfterResetAreLow :
    ∃ t, (readyShort 0x4AC).resetting ∧ step (readyShort 0x4AC) = .next t := ⟨_, by decide, rfl⟩
theorem witness_FirstByteAfterResetIsIgnored :
    iwRst (Pins.mk 0x7FF true 1).iw = true ∧ (∀ p ∈ [Pins.mk 0x1FF true 2, Pins.mk 0x000 false 3], p.quiet) ∧
      (Pins.mk 0x355 false 4).presents true 0x55 := by decide
theorem witness_InvariantHoldsAfterReset :
    ∃ t, (at' 15 0x00 1 2 3 4 5 6 0x4AC).resetting ∧ step (at' 15 0x00 1 2 3 4 5 6 0x4AC) = .next t :=
  ⟨_, by decide, rfl⟩
theorem witness_StepKeepsInvariant :
    ∃ t, (readyShort 0x2AC).Inv ∧ step (readyShort 0x2AC) = .next t :=
  ⟨_, ⟨by decide, by decide, by decide⟩, rfl⟩
theorem witness_PortShowsTimeOfLastByteOfStream :
    (TimedLine.mk (some 0) (.byte 0x7E)).time 9 < 2 ^ Config.tsWidth := Nat.two_pow_pos _
theorem witness_VerifiedFrameStableBetweenPublishes :
    ∃ t, (readyShort 0x2AD).probe = none ∧ iwRst (readyShort 0x2AD).pins.iw = false ∧
      (∀ p ∈ (readyShort 0x2AD).pending, iwRst p.iw = false) ∧
      Host.Core.run core 1 (readyShort 0x2AD) = .next t ∧
      (∀ j u, 0 < j → j ≤ 1 → Host.Core.run core j (readyShort 0x2AD) = .next u → u.frameVerified = false) := by
  refine ⟨_, rfl, by decide, by decide, rfl, ?_⟩
  intro j u h0 h1 h
  obtain rfl : j = 1 := by omega
  cases h
  decide
theorem witness_FiveCyclesBetweenPublishes :
    ∃ t u, (readyShort 0x2AC).probe = none ∧ step (readyShort 0x2AC) = .next t ∧ t.frameVerified = true ∧
      Host.Core.run core 4 t = .next u := ⟨_, _, rfl, rfl, by decide, rfl⟩
theorem witness_ValidFrameIsVerifiedExactlyOnce :
    ({ State.reset with prev := 0x00 } : State).prev = 0x00 ∧ [(1 : Byte), 2].length = dlc (idOf 0x50) ∧
      [(1 : Byte), 2, 3, 4].length = dlc (idOf 0x20) ∧ [(1 : Byte), 2, 3, 4, 5, 6, 7, 8].length = dlc (idOf 0x3C) := by
  decide
theorem witness_WrongChecksumFrameIsRejected :
    ({ State.reset with prev := 0x00 } : State).prev = 0x00 ∧ [(1 : Byte), 2].length = dlc (idOf 0x50) ∧
      (0xAD : Byte) ≠ transmitterChecksum (schemeOf State.reset.cfgLegacy (idOf 0x50)) 0x50 [1, 2] := by decide

end Sys2Proof.Tests
end

section
/-! The VerifiedFrame ports (R56): the lanes of `vf_data`, and the length in binary. -/

namespace Sys2Proof.Machine

/-- The lane above the low byte of a concatenation is the lane one lower of its high part. -/
theorem extractLsb'_append_byte_succ {n : Nat} (hi : BitVec n) (lo : Byte) (k : Nat) :
    (hi ++ lo).extractLsb' (8 * (k + 1)) 8 = hi.extractLsb' (8 * k) 8 :=
  BitVec.extractLsb'_append_eq_of_le (by omega)

/-- R56, lane by lane: dropping the `k` lower bytes leaves payload byte `k` in the low byte. -/
theorem State.vfData_lane (s : State) (k : Fin 8) : s.vfData.extractLsb' (8 * k.val) 8 = s.vData k := by
  fin_cases k <;>
    simp only [State.vfData, State.vData, extractLsb'_append_byte_succ, Nat.mul_zero,
      BitVec.extractLsb'_append_eq_right, BitVec.extractLsb'_eq_self]

theorem State.vDlc_cases (s : State) : s.vDlc = 2 ∨ s.vDlc = 4 ∨ s.vDlc = 8 := dlc_cases _

/-- Every length fits the four bits of `vf_dlc`. -/
theorem State.getData_vfDlc_toNat (s : State) : s.getData.vfDlc.toNat = s.vDlc := by
  have h : s.vDlc < 16 := (dlc_le s.vId).trans_lt (by decide)
  exact Nat.mod_eq_of_lt h

theorem State.getData_vfDlc_cases (s : State) :
    s.getData.vfDlc = 0b0010 ∨ s.getData.vfDlc = 0b0100 ∨ s.getData.vfDlc = 0b1000 := by
  rcases s.vDlc_cases with h | h | h <;> simp [State.getData, h]

/-- Settles O38: the data lanes and the length from their lemmas, the other ports are `vraw` slots by definition. -/
theorem verifiedFramePortLayout : Obligations.VerifiedFramePortLayout := by
  intro s
  exact ⟨s.vfData_lane, s.getData_vfDlc_cases, s.getData_vfDlc_toNat, rfl, rfl, rfl, rfl⟩

end Sys2Proof.Machine
end

section
/-! What a consumed byte selects (R51, R61): RX_SYNC after the sync predicate, else one of the five position rows.
Those read the framing-error flag nowhere (R64), and each of the six latches the byte (R66, R103). -/

namespace Sys2Proof

/-- The position rows of R51: the operation of a consumed byte that is not a sync. -/
def Seq.positionOp (q : Seq) (f : Bool) (b : Byte) : Instr :=
  if q.pos.toNat = 0 then .rxSlot0 f b
  else if q.pos.toNat = 1 then .rxPid f b
  else if 11 ≤ q.pos.toNat then .rxIgnore f b
  else if q.pos.toNat = 2 + q.wDlc ∨ q.pos.toNat = 10 then .rxChk f b
  else .rxData f b

/-- R51 for a word that presents a byte. -/
theorem decodeIw_of_byte {w : BitVec 11} (q : Seq) (hr : iwRst w = false) (hv : iwValid w = true) :
    decodeIw w q =
      if syncDetected (iwFerr w) q.prev = true then .rxSync (iwData w) else q.positionOp (iwFerr w) (iwData w) := by
  simp [decodeIw, Seq.positionOp, hr, hv]

theorem Seq.positionOp_ne_rxSync (q : Seq) (f : Bool) (b x : Byte) : q.positionOp f b ≠ .rxSync x := by
  unfold Seq.positionOp
  split_ifs <;> exact Instr.noConfusion

theorem syncDetected_eq_true_iff {f : Bool} {p : Byte} : syncDetected f p = true ↔ f = true ∧ p = 0x00 := by
  rw [syncDetected, Bool.and_eq_true, beq_iff_eq]

namespace Machine

/-- The operation of a cycle that consumes a byte. -/
theorem fetch_of_receives {s : State} {f : Bool} {b : Byte} (h : s.receives f b) :
    s.fetch = if syncDetected f s.prev = true then .rxSync b else s.seq.positionOp f b := by
  obtain ⟨hp, hr, hv, rfl, rfl⟩ := h
  rw [fetch_of_cycle hp, decodeIw_of_byte _ hr hv]
  rfl

theorem fetch_of_sync {s : State} {b : Byte} (h : s.receives true b) (hz : s.prev = 0x00) : s.fetch = .rxSync b := by
  rw [fetch_of_receives h, if_pos (syncDetected_eq_true_iff.mpr ⟨rfl, hz⟩)]

theorem fetch_of_not_sync {s : State} {f : Bool} {b : Byte} (h : s.receives f b) (hn : ¬ (f = true ∧ s.prev = 0x00)) :
    s.fetch = s.seq.positionOp f b := by
  rw [fetch_of_receives h, if_neg (syncDetected_eq_true_iff.not.mpr hn)]

theorem fetch_of_quiet {s : State} (h : s.quiet) : s.fetch = .idle := by
  obtain ⟨hp, hr, hv⟩ := h
  simp [fetch_of_cycle hp, decodeIw, hr, hv]

theorem fetch_of_resetting {s : State} (h : s.resetting) : s.fetch = .reset := by
  obtain ⟨hp, hr⟩ := h
  simp [fetch_of_cycle hp, decodeIw, hr]

/-! ### Every consumed byte is latched -/

theorem exec_positionOp_latches (q : Seq) {f : Bool} {b : Byte} {s t : State}
    (h : exec (q.positionOp f b) s = .next t) : t.prev = b ∧ t.lastTs = t.pins.now := by
  unfold Seq.positionOp at h
  split_ifs at h <;> cases h <;> exact ⟨rfl, rfl⟩

/-- R66 and R103: under every receive operation the byte becomes `prev` and the time becomes `last_ts`. -/
theorem exec_fetch_latches {s t : State} {f : Bool} {b : Byte} (h : s.receives f b)
    (ht : exec s.fetch s = .next t) : t.prev = b ∧ t.lastTs = s.pins.now := by
  rw [← (exec_environment _ _ _ ht).1]
  by_cases hs : f = true ∧ s.prev = 0x00
  · obtain ⟨rfl, hz⟩ := hs
    rw [fetch_of_sync h hz, exec_rxSync] at ht
    cases ht
    exact ⟨rfl, rfl⟩
  · rw [fetch_of_not_sync h hs] at ht
    exact exec_positionOp_latches _ ht

/-! ### The framing-error flag and the input word reach no register from a position row -/

/-- The state with another input word at its ports. -/
def State.withIw (s : State) (w : BitVec 11) : State := { s with pins := { s.pins with iw := w } }

theorem receives_withIw {s : State} (h : s.probe = none) (f : Bool) (b : Byte) :
    (s.withIw (mkIw false true f b)).receives f b :=
  ⟨h, iwRst_mkIw .., iwValid_mkIw .., iwFerr_mkIw .., iwData_mkIw ..⟩

theorem exec_positionOp_ferr (q : Seq) (f g : Bool) (b : Byte) (s : State) :
    exec (q.positionOp f b) s = exec (q.positionOp g b) s := by
  unfold Seq.positionOp
  split_ifs <;> rfl

/-- A position row has its byte as operand: another input word at the ports stays there and changes nothing else. -/
theorem exec_positionOp_withIw (q : Seq) (f : Bool) (b : Byte) (w : BitVec 11) {s t : State}
    (h : exec (q.positionOp f b) s = .next t) :
    exec (q.positionOp f b) (s.withIw w) = .next (t.withIw w) := by
  unfold Seq.positionOp at h ⊢
  split_ifs at h ⊢
  case pos | pos | pos => cases h; rfl
  case pos => -- RX_CHK
    rcases hk : s.frameOk b with _ | _
    · rw [exec_rxChk_fail _ f b hk] at h
      cases h
      exact exec_rxChk_fail _ f b hk
    · rw [exec_rxChk_pass _ f b hk] at h
      cases h
      exact exec_rxChk_pass _ f b hk
  case neg => -- RX_DATA
    rw [exec_rxData] at h
    cases h
    exact exec_rxData _ f b

/-- The edge replaces the input word, whatever it was. -/
theorem State.retire_withIw {s : State} (w : BitVec 11) (h : s.probe = none) : (s.withIw w).retire = s.retire := by
  cases hp : s.pending with
  | nil => exact (State.retire_of_last (s := s.withIw w) h hp).trans (State.retire_of_last h hp).symm
  | cons p ps => exact (State.retire_of_next (s := s.withIw w) h hp).trans (State.retire_of_next h hp).symm

/-! ### The statements -/

/-- Settles O3: RX_SYNC is no position row, so the cycle performs it exactly on the sync predicate. -/
theorem syncIsFramingErrorAfterZero : Obligations.SyncIsFramingErrorAfterZero := by
  intro s f b h
  constructor
  · rintro ⟨x, hx⟩
    by_contra hn
    exact s.seq.positionOp_ne_rxSync f b x ((fetch_of_not_sync h hn).symm.trans hx)
  · rintro ⟨rfl, hz⟩
    exact ⟨b, fetch_of_sync h hz⟩

/-- Settles O4: the selection reads no position, and the next state is the spec lemma of RX_SYNC. -/
theorem syncByteStartsFrame : Obligations.SyncByteStartsFrame :=
  fun s b h hz => ⟨fetch_of_sync h hz, exec_rxSync s b⟩

/-- Settles O28: one kind of clock cycle at a time. -/
theorem prevIsLastConsumedByte : Obligations.PrevIsLastConsumedByte := by
  intro s t ht
  obtain ⟨u, hu, rfl⟩ := exec_of_step ht
  rw [State.retire_prev]
  refine ⟨fun f b h => (exec_fetch_latches h hu).1, fun h => ?_, fun h => ?_⟩
  · rw [fetch_of_quiet h, exec_idle] at hu
    cases hu
    rfl
  · rw [fetch_of_resetting h, exec_reset] at hu
    cases hu
    rfl

/-- Settles O33: both words select the same position row up to the flag; the states they lead to differ at the
input ports only, which the edge replaces. -/
theorem framingErrorWithoutZeroIsOrdinary : Obligations.FramingErrorWithoutZeroIsOrdinary := by
  intro s b h hz
  obtain ⟨t, ht⟩ := exec_total (s.seq.positionOp true b) s
  have hflagged : step s = .next t.retire :=
    step_of_exec (by rw [fetch_of_not_sync h (fun hn => hz hn.2), ht])
  have hclean : step (s.withIw (mkIw false true false b)) = .next (t.withIw (mkIw false true false b)).retire := by
    apply step_of_exec
    rw [fetch_of_not_sync (receives_withIw h.1 false b) (fun hn => Bool.false_ne_true hn.1)]
    rw [exec_positionOp_ferr _ true false] at ht
    exact exec_positionOp_withIw _ false b _ ht
  obtain ⟨-, -, hprobe⟩ := exec_environment _ _ _ ht
  rw [State.retire_withIw _ (hprobe.trans h.1)] at hclean
  exact hflagged.trans hclean.symm

end Machine
end Sys2Proof
end

section
/-! FrameAssembler (41_assembler.md): the position rows one by one (R73 to R78), and the one `Step` of the read cycle
(R68) as the store of a plain byte or of a checksum byte, which is what the operations do. -/

namespace Sys2Proof.Machine

/-! ### The position row that a position selects (R51) -/

theorem positionOp_of_zero {s : State} (f : Bool) (b : Byte) (h : s.pos.toNat = 0) :
    s.seq.positionOp f b = .rxSlot0 f b := by
  simp [Seq.positionOp, State.seq, h]

theorem positionOp_of_one {s : State} (f : Bool) (b : Byte) (h : s.pos.toNat = 1) :
    s.seq.positionOp f b = .rxPid f b := by
  simp [Seq.positionOp, State.seq, h]

theorem positionOp_of_wait {s : State} (f : Bool) (b : Byte) (h : 11 ≤ s.pos.toNat) :
    s.seq.positionOp f b = .rxIgnore f b := by
  have h0 : s.pos.toNat ≠ 0 := by omega
  have h1 : s.pos.toNat ≠ 1 := by omega
  simp only [Seq.positionOp, State.seq, h0, h1, h, if_true, if_false]

theorem positionOp_of_chk {s : State} (f : Bool) (b : Byte) (h2 : 2 ≤ s.pos.toNat)
    (h : s.pos.toNat = 2 + s.wDlc ∨ s.pos.toNat = 10) : s.seq.positionOp f b = .rxChk f b := by
  have hle : s.wDlc ≤ 8 := dlc_le _
  have h0 : s.pos.toNat ≠ 0 := by omega
  have h1 : s.pos.toNat ≠ 1 := by omega
  have h11 : ¬ 11 ≤ s.pos.toNat := by omega
  simp only [Seq.positionOp, State.seq, h0, h1, h11, h, if_true, if_false]

theorem positionOp_of_data {s : State} (f : Bool) (b : Byte) (h2 : 2 ≤ s.pos.toNat) (h9 : s.pos.toNat ≤ 9)
    (h : s.pos.toNat ≠ 2 + s.wDlc) : s.seq.positionOp f b = .rxData f b := by
  have h0 : s.pos.toNat ≠ 0 := by omega
  have h1 : s.pos.toNat ≠ 1 := by omega
  have h11 : ¬ 11 ≤ s.pos.toNat := by omega
  have hc : ¬ (s.pos.toNat = 2 + s.wDlc ∨ s.pos.toNat = 10) := by omega
  simp only [Seq.positionOp, State.seq, h0, h1, h11, hc, if_false]

/-- R76: below the checksum slot the position advances by one. -/
theorem exec_rxData_of_le {s : State} (f : Bool) (b : Byte) (h : s.pos.toNat ≤ 9) :
    exec (.rxData f b) s =
      .next { s with
        raw := s.raw.setIfInBounds s.pos.toNat b, pos := s.pos + 1, prev := b, lastTs := s.pins.now,
        outEvent := 0b00 } := by
  have hpos : BitVec.ofNat 4 (s.pos.toNat + 1) = s.pos + 1 := by
    rw [BitVec.ofNat_add, BitVec.ofNat_toNat, BitVec.setWidth_eq]
    rfl
  rw [exec_rxData, if_pos (by omega), hpos]

/-! ### The read cycle (R68) -/

/-- R68 `p0`: the position the byte is taken at, which is 0 for a sync (R62). -/
def State.startPos (s : State) (f : Bool) : Nat := if syncDetected f s.prev = true then 0 else s.pos.toNat

theorem State.startPos_of_sync {s : State} (h : s.prev = 0x00) : s.startPos true = 0 :=
  if_pos (syncDetected_eq_true_iff.mpr ⟨rfl, h⟩)

theorem State.startPos_of_not_sync {s : State} {f : Bool} (h : syncDetected f s.prev = false) :
    s.startPos f = s.pos.toNat := by
  simp [State.startPos, h]

/-- A byte stored as R71 says, with no verdict: what every receive operation but RX_CHK does. -/
def State.takeByte (s : State) (p : Nat) (b : Byte) : State :=
  ((s.storeAndAdvance p b).latchByte b).report outcomeNone

/-- The checksum byte: the verdict, the publish on a pass, and the store in slot 10 (R72, R77). -/
def State.takeChecksum (s : State) (b : Byte) : State :=
  (((if s.frameOk b = true then s.publish b else s).storeAndAdvance Config.chkSlot b).latchByte b).report
    (outcomeOf (s.frameOk b))

theorem exec_rxSync_eq_takeByte (b : Byte) (s : State) : exec (.rxSync b) s = .next (s.takeByte 0 b) := rfl
theorem exec_rxSlot0_eq_takeByte (f : Bool) (b : Byte) (s : State) :
    exec (.rxSlot0 f b) s = .next (s.takeByte 0 b) := rfl
theorem exec_rxPid_eq_takeByte (f : Bool) (b : Byte) (s : State) :
    exec (.rxPid f b) s = .next (s.takeByte 1 b) := rfl
theorem exec_rxData_eq_takeByte (f : Bool) (b : Byte) (s : State) :
    exec (.rxData f b) s = .next (s.takeByte s.pos.toNat b) := rfl
theorem exec_rxChk_eq_takeChecksum (f : Bool) (b : Byte) (s : State) :
    exec (.rxChk f b) s = .next (s.takeChecksum b) := rfl

/-- At the wait positions the store changes neither slots nor position (R71, R78). -/
theorem exec_rxIgnore_eq_takeByte (f : Bool) (b : Byte) {s : State} (h : 11 ≤ s.pos.toNat) :
    exec (.rxIgnore f b) s = .next (s.takeByte s.pos.toNat b) := by
  have hpos : s.setPos (BitVec.ofNat 4 s.pos.toNat) = s := by
    rw [BitVec.ofNat_toNat, BitVec.setWidth_eq]; rfl
  have hstore : s.storeAndAdvance s.pos.toNat b = s := by
    rw [State.storeAndAdvance, if_neg (by omega), hpos]
  rw [State.takeByte, hstore]
  rfl

theorem cycle_of_resetting {s : State} (h : s.resetting) : cycle s.pins s = s.loadReset s.pins.legacyMode :=
  if_pos h.2

theorem cycle_of_quiet {s : State} (h : s.quiet) : cycle s.pins s = { s with outEvent := 0b00 } := by
  obtain ⟨-, hr, hv⟩ := h
  simp [cycle, readCycle, hr, hv]

/-- R68 for a byte taken at a position that is neither 2 plus the length nor 10: steps 2 and 4 do nothing. At
position 1 the length is that of the byte itself (R69), but no length is short enough to make a difference there. -/
theorem cycle_of_plain_byte {s : State} {f : Bool} {b : Byte} (h : s.receives f b) (h10 : s.startPos f ≠ 10)
    (hn : s.startPos f < 2 ∨ s.startPos f ≠ 2 + s.wDlc) : cycle s.pins s = s.takeByte (s.startPos f) b := by
  obtain ⟨-, hr, hv, rfl, rfl⟩ := h
  have hw : s.wDlc = dlc (idOf s.raw[1]) := rfl
  have hlen : s.startPos (iwFerr s.pins.iw) ≠
      2 + dlc (if s.startPos (iwFerr s.pins.iw) = 1 then idOf (iwData s.pins.iw) else idOf s.raw[1]) := by
    have := two_le_dlc (idOf (iwData s.pins.iw))
    have := two_le_dlc (idOf s.raw[1])
    split_ifs <;> omega
  simp only [cycle, hr, readCycle, hv, Bool.true_eq_false, Bool.false_eq_true, if_false]
  unfold State.startPos at h10 hlen ⊢
  simp only [if_neg hlen, h10, false_and, if_false, State.takeByte, State.storeAndAdvance]
  split_ifs <;> rfl

/-- R68 for a checksum byte: step 2 moves the position to slot 10, step 4 judges and publishes. -/
theorem cycle_of_checksum_byte {s : State} {f : Bool} {b : Byte} (h : s.receives f b) (h2 : 2 ≤ s.startPos f)
    (hn : s.startPos f = 2 + s.wDlc ∨ s.startPos f = 10) : cycle s.pins s = s.takeChecksum b := by
  obtain ⟨-, hr, hv, rfl, rfl⟩ := h
  have hw : s.wDlc = dlc (idOf s.raw[1]) := rfl
  have h1 : s.startPos (iwFerr s.pins.iw) ≠ 1 := by omega
  have hslot : (if s.startPos (iwFerr s.pins.iw) = 2 + dlc (idOf s.raw[1]) then
      s.startPos (iwFerr s.pins.iw) + (8 - dlc (idOf s.raw[1])) else s.startPos (iwFerr s.pins.iw)) = 10 := by
    have := dlc_le (idOf s.raw[1])
    split_ifs <;> omega
  simp only [cycle, hr, readCycle, hv, Bool.true_eq_false, Bool.false_eq_true, if_false]
  unfold State.startPos at h1 hslot
  have hok : checksumOk s.raw[1] (payload s.raw (dlc (idOf s.raw[1]))) (iwData s.pins.iw) (idOf s.raw[1])
      s.cfgLegacy = s.frameOk (iwData s.pins.iw) := rfl
  simp only [if_neg h1, hslot, hok, true_and, State.takeChecksum]
  cases s.frameOk (iwData s.pins.iw) <;> rfl

/-! ### The statements -/

/-- Settles O24: the cycles of R51 one by one; a byte is plain or a checksum byte for the operation and for R68
alike. -/
theorem operationsEqualReadCycleStep : Obligations.OperationsEqualReadCycleStep := by
  intro s hp
  cases cycle_cases hp with
  | reset h op => rw [op, exec_reset, cycle_of_resetting h]
  | idle h op => rw [op, exec_idle, cycle_of_quiet h]
  | sync b h z op =>
    have h0 := State.startPos_of_sync z
    rw [op, cycle_of_plain_byte h (by omega) (by omega), h0, exec_rxSync_eq_takeByte]
  | slot0 f b h n p op =>
    have h0 := (State.startPos_of_not_sync n).trans p
    rw [op, cycle_of_plain_byte h (by omega) (by omega), h0, exec_rxSlot0_eq_takeByte]
  | pid f b h n p op =>
    have h1 := (State.startPos_of_not_sync n).trans p
    rw [op, cycle_of_plain_byte h (by omega) (by omega), h1, exec_rxPid_eq_takeByte]
  | ignore f b h n p op =>
    have hs := State.startPos_of_not_sync n
    have hle : s.wDlc ≤ 8 := dlc_le _
    rw [op, cycle_of_plain_byte h (by omega) (by omega), hs, exec_rxIgnore_eq_takeByte f b p]
  | chk f b h n p op =>
    obtain ⟨h2, -, hn⟩ := p
    rw [← State.startPos_of_not_sync n] at h2 hn
    rw [op, cycle_of_checksum_byte h h2 hn, exec_rxChk_eq_takeChecksum]
  | data f b h n p op =>
    have hs := State.startPos_of_not_sync n
    rw [op, cycle_of_plain_byte h (by omega) (by omega), hs, exec_rxData_eq_takeByte]

/-- Settles O2: the selection of a cycle without a byte, and the spec lemma of IDLE. -/
theorem idleCycleOnlyClearsOutcome : Obligations.IdleCycleOnlyClearsOutcome :=
  fun s h => ⟨fetch_of_quiet h, exec_idle s⟩

/-- Settles O5: position 0 selects RX_SLOT0, whose spec lemma gives the next state. -/
theorem slotZeroByteIsStoredAsSync : Obligations.SlotZeroByteIsStoredAsSync :=
  fun s f b h hn hp => ⟨(fetch_of_not_sync h hn).trans (positionOp_of_zero f b hp), exec_rxSlot0 s f b⟩

/-- Settles O6: position 1 selects RX_PID, and slot 1 of its next state is the byte that identifier and length
are read from. -/
theorem pidByteSetsIdentifierAndLength : Obligations.PidByteSetsIdentifierAndLength := by
  intro s f b h hn hp
  have hid : idOf (s.raw.set 1 b)[1] = b.extractLsb' 0 6 := by rw [Vector.getElem_set_self]; rfl
  exact ⟨(fetch_of_not_sync h hn).trans (positionOp_of_one f b hp), _, exec_rxPid s f b, rfl, hid, congrArg dlc hid⟩

/-- Settles O7: a payload position selects RX_DATA, which stores below the checksum slot. -/
theorem dataByteGoesToPositionSlot : Obligations.DataByteGoesToPositionSlot :=
  fun _ f b h hn h2 h9 hc =>
    ⟨(fetch_of_not_sync h hn).trans (positionOp_of_data f b h2 h9 hc), exec_rxData_of_le f b h9⟩

/-- Settles O8: a checksum position selects RX_CHK, whose verdict `frameOk` is the `ChecksumOK` of the statement. -/
theorem checksumByteVerifiesOrRejects : Obligations.ChecksumByteVerifiesOrRejects :=
  fun s f b h hn h2 hc =>
    ⟨(fetch_of_not_sync h hn).trans (positionOp_of_chk f b h2 hc), exec_rxChk_pass s f b, exec_rxChk_fail s f b⟩

/-- Settles O9: a wait position selects RX_IGNORE, whose spec lemma gives the next state. -/
theorem ignoredByteKeepsPositionAndSlots : Obligations.IgnoredByteKeepsPositionAndSlots :=
  fun s f b h hn hp => ⟨(fetch_of_not_sync h hn).trans (positionOp_of_wait f b hp), exec_rxIgnore s f b⟩

end Sys2Proof.Machine
end

section
/-! ChecksumValidator (43_checksum.md): the verdict as one sum of natural numbers modulo 256 (R88 to R92), and what
a failing check leaves behind (R97). -/

namespace Sys2Proof.Machine

/-! ### The sum modulo 256 -/

/-- R89: the first `n` payload bytes, summed as natural numbers, slot by slot. -/
theorem payload_sum_toNat (v : Slots) {n : Nat} (hn : n ≤ 8) :
    ((payload v n).map BitVec.toNat).sum = ∑ k : Fin 8, if k.val < n then v[2 + k.val].toNat else 0 := by
  have hslots : (payload v 8).map BitVec.toNat = List.ofFn (fun k : Fin 8 => v[2 + k.val].toNat) := by
    rw [payload_eight]; rfl
  rw [payload_take v n hn, List.map_take, hslots, List.sum_take_ofFn, Finset.sum_filter]

theorem sum8_eq_ones_iff (l : List Byte) : sum8 l = 0xFF ↔ (l.map BitVec.toNat).sum % 256 = 0xFF := by
  rw [← BitVec.toNat_inj, sum8_toNat]
  rfl

/-- R88, R90, R91: what the scheme covers, summed as natural numbers: the PID byte only where it is enhanced. -/
theorem covered_schemeOf_sum_toNat (legacy : Bool) (id : Ident) (pid : Byte) (data : List Byte) :
    ((covered (schemeOf legacy id) pid data).map BitVec.toNat).sum =
      (if legacy = true ∨ 0x3C ≤ id.toNat then 0 else pid.toNat) + (data.map BitVec.toNat).sum := by
  unfold schemeOf
  split_ifs <;> simp [covered]

/-- R92 in natural numbers. -/
theorem checksumOk_iff_sum_toNat (pid : Byte) (data : List Byte) (c : Byte) (id : Ident) (legacy : Bool) :
    checksumOk pid data c id legacy = true ↔
      ((if legacy = true ∨ 0x3C ≤ id.toNat then 0 else pid.toNat) + (data.map BitVec.toNat).sum + c.toNat) % 256
        = 0xFF := by
  rw [checksumOk, beq_iff_eq, schemeSum, sum8_eq_ones_iff, List.map_append, List.sum_append,
    covered_schemeOf_sum_toNat, List.map_singleton, List.sum_singleton]

/-! ### The slot of the checksum byte -/

theorem slotRead_set_checksum (v : Slots) (b : Byte) (j : Fin 11) :
    slotRead (v.set 10 b) j = if j.val = 10 then b else slotRead v j := by
  simp [slotRead, Vector.getElem_set, eq_comm]

/-! ### The statements -/

/-- Settles O14: the verdict in natural numbers, with the payload summed slot by slot. -/
theorem verdictIsModularSum : Obligations.VerdictIsModularSum := by
  intro s c
  have hlen : s.wDlc ≤ 8 := dlc_le _
  rw [State.frameOk, checksumOk_iff_sum_toNat, payload_sum_toNat s.raw hlen]
  rfl

/-- Settles O32: the step is RX_CHK on its failing side, whose spec lemma writes slot 10 and no VerifiedFrame
register, and the edge writes none of these. -/
theorem rejectedFrameIsNotPublished : Obligations.RejectedFrameIsNotPublished := by
  intro s t f b _ hop hfail hstep
  obtain ⟨u, hu, rfl⟩ := exec_of_step hstep
  rw [hop, exec_rxChk_fail s f b hfail] at hu
  cases hu
  rw [State.retire_vraw, State.retire_vValid, State.retire_raw, State.retire_pos, State.retire_outEvent]
  exact ⟨rfl, rfl, slotRead_set_checksum s.raw b, rfl, rfl⟩

end Sys2Proof.Machine
end

section
/-! FrameStore (44_frame_store.md): what writes the VerifiedFrame (R98), what its ports show after reset (R102), and
the timestamp of the last byte (R103). -/

namespace Sys2Proof.Machine

/-! ### The one writer of the VerifiedFrame beside reset (R98) -/

/-- A lookup's row is never RESET. -/
theorem fetch_ne_reset_of_lookup {s : State} {p : LookupWord} (h : s.probe = some p) : s.fetch ≠ .reset := by
  rw [fetch_of_lookup h]
  cases p with
  | id w =>
    change decodeId w ≠ .reset
    unfold decodeId
    split_ifs <;> exact Instr.noConfusion
  | sw w =>
    change decodeSw w ≠ .reset
    unfold decodeSw
    split_ifs <;> exact Instr.noConfusion

theorem fetch_eq_reset_iff {s : State} : s.fetch = .reset ↔ s.resetting := by
  refine ⟨fun h => ?_, fetch_of_resetting⟩
  cases hp : s.probe with
  | some p => exact absurd h (fetch_ne_reset_of_lookup hp)
  | none =>
    rw [fetch_of_cycle hp, decodeIw] at h
    split_ifs at h with hr
    exact ⟨hp, hr⟩

/-- An operation that is neither RESET nor a passing RX_CHK leaves the VerifiedFrame registers alone. -/
theorem exec_keeps_verifiedFrame {i : Instr} {s t : State} (h : exec i s = .next t) (hreset : i ≠ .reset)
    (hfail : ∀ f b, i = .rxChk f b → s.frameOk b = false) : t.vraw = s.vraw ∧ t.vValid = s.vValid := by
  cases i with
  | reset => exact absurd rfl hreset
  | rxChk f b =>
    rw [exec_rxChk_fail s f b (hfail f b rfl)] at h
    cases h
    exact ⟨rfl, rfl⟩
  | rxData f b =>
    rw [exec_rxData] at h
    cases h
    exact ⟨rfl, rfl⟩
  | _ =>
    cases h
    exact ⟨rfl, rfl⟩

/-! ### The ports of the VerifiedFrame -/

theorem State.getData_congr {s t : State} (hraw : t.vraw = s.vraw) (hvalid : t.vValid = s.vValid) :
    t.getData = s.getData := by
  simp only [State.getData, State.vSync, State.vPid, State.vId, State.vDlc, State.vfData, State.vChecksum, hraw, hvalid]

@[simp] theorem State.retire_getData (s : State) : s.retire.getData = s.getData :=
  State.getData_congr s.retire_vraw s.retire_vValid

theorem getElem_zeroSlots (i : Nat) (h : i < 11) : zeroSlots[i] = 0x00 := Vector.getElem_replicate h

/-- R102: the ports of the zero slots; the length is the one of identifier 0. -/
theorem State.loadReset_getData (s : State) (legacy : Bool) :
    (s.loadReset legacy).getData = ⟨false, 0x00, 0x00, 0, 2, 0, 0x00⟩ := by
  simp only [State.getData, State.vSync, State.vPid, State.vId, State.vDlc, State.vfData, State.vChecksum,
    State.loadReset_vraw, State.loadReset_vValid, getElem_zeroSlots]
  rfl

/-! ### The statements -/

/-- Settles O39: the step is RESET, and the edge leaves the ports of its zero slots as they are. -/
theorem portsAfterResetShowNoFrame : Obligations.PortsAfterResetShowNoFrame := by
  intro s t h ht
  obtain ⟨u, hu, rfl⟩ := exec_of_step ht
  rw [fetch_of_resetting h, exec_reset] at hu
  cases hu
  rw [State.retire_getData, State.loadReset_getData]

/-- Settles O29: every receive operation latches the time, IDLE does not, and the port is the register. -/
theorem timestampIsThatOfLastConsumedByte : Obligations.TimestampIsThatOfLastConsumedByte := by
  intro s t ht
  obtain ⟨u, hu, rfl⟩ := exec_of_step ht
  have hport : u.retire.outputs.lastByteTs = u.retire.lastTs := rfl
  rw [hport, State.retire_lastTs]
  constructor
  · intro f b h
    have hnow : u.lastTs = s.pins.now := (exec_fetch_latches h hu).2
    exact ⟨hnow, hnow⟩
  · intro h
    rw [fetch_of_quiet h, exec_idle] at hu
    cases hu
    rfl

/-- Settles O31: the passing side of RX_CHK publishes the whole of `raw`; a step that is neither that nor a reset
cycle keeps the VerifiedFrame, so one that changes it is a passing check. -/
theorem verifiedFrameWrittenOnlyByPublish : Obligations.VerifiedFrameWrittenOnlyByPublish := by
  intro s t ht
  obtain ⟨u, hu, rfl⟩ := exec_of_step ht
  rw [State.retire_vraw, State.retire_vValid, State.retire_outEvent]
  constructor
  · intro f b _ hop hpass
    rw [hop, exec_rxChk_pass s f b hpass] at hu
    cases hu
    exact ⟨slotRead_set_checksum s.raw b, rfl, rfl⟩
  · intro hreset hchanged
    by_contra hno
    have hfail : ∀ f b, s.fetch = .rxChk f b → s.frameOk b = false := fun f b hop =>
      Bool.eq_false_of_not_eq_true fun hpass => hno ⟨f, b, hop, hpass⟩
    obtain ⟨hraw, hvalid⟩ := exec_keeps_verifiedFrame hu (fetch_eq_reset_iff.not.mpr hreset) hfail
    exact hchanged.elim (· hraw) (· hvalid)

end Sys2Proof.Machine
end

section
/-! Errors and their outcome codes (60_exceptions.md): the block never stops and resumes at the next sync (R105), and
what each clock cycle leaves in `out_event` (R109). -/

namespace Sys2Proof.Machine

/-! ### Resuming at a sync (R105) -/

theorem step_total (s : State) : ∃ t, step s = .next t := by
  obtain ⟨t, ht⟩ := exec_total s.fetch s
  exact ⟨t.retire, step_of_exec ht⟩

/-- R79: position 1 is READING_PID, whatever the length. -/
theorem State.readState_of_pos_one {s : State} (h : s.pos = 1) : s.readState = some .readingPid := by
  simp [State.readState, h]

/-- R62, R63: a sync leads to position 1 from every position. -/
theorem step_pos_of_sync {s t : State} {b : Byte} (h : s.receives true b) (hz : s.prev = 0x00)
    (ht : step s = .next t) : t.pos = 1 := by
  obtain ⟨u, hu, rfl⟩ := exec_of_step ht
  rw [fetch_of_sync h hz, exec_rxSync] at hu
  cases hu
  exact State.retire_pos _

/-! ### The outcome code of a clock cycle (R109) -/

/-- R77: a checksum byte reports its verdict. -/
theorem exec_rxChk_outEvent {f : Bool} {b : Byte} {s t : State} (h : exec (.rxChk f b) s = .next t) :
    t.outEvent = outcomeOf (s.frameOk b) := by
  cases h
  rfl

/-- R109: every clock cycle without a checksum byte reports NONE. A lookup is no clock cycle and reports nothing. -/
theorem exec_fetch_outEvent_of_no_check {s t : State} (hp : s.probe = none) (hno : ∀ f b, s.fetch ≠ .rxChk f b)
    (ht : exec s.fetch s = .next t) : t.outEvent = outcomeNone := by
  cases cycle_cases hp with
  | chk f b _ _ _ op => exact absurd op (hno f b)
  | reset _ op | idle _ op | sync _ _ _ op | slot0 _ _ _ _ _ op | pid _ _ _ _ _ op | ignore _ _ _ _ _ op
  | data _ _ _ _ _ op =>
    rw [op] at ht
    cases ht
    rfl

theorem outcomeOf_eq_verified_iff {ok : Bool} : outcomeOf ok = outcomeVerified ↔ ok = true := by
  cases ok <;> decide

theorem outcomeOf_eq_rejected_iff {ok : Bool} : outcomeOf ok = outcomeRejected ↔ ok = false := by
  cases ok <;> decide

theorem outcomeOf_ne_none (ok : Bool) : outcomeOf ok ≠ outcomeNone := by
  cases ok <;> decide

/-- An operation that is one RX_CHK is no other: a condition on its byte holds of some RX_CHK iff of this one. -/
theorem exists_rxChk_eq_and_iff {f : Bool} {b : Byte} {p : Byte → Prop} :
    (∃ g c, Instr.rxChk f b = .rxChk g c ∧ p c) ↔ p b := by
  simp

/-! ### The statements -/

/-- Settles O25: every operation answers; the zero byte becomes `prev`, so the byte with the framing error is a
sync. -/
theorem nothingStopsAndZeroThenErrorResumes : Obligations.NothingStopsAndZeroThenErrorResumes := by
  refine ⟨step_total, fun s t u f b hzero ht herror hu => ?_⟩
  have hprev : t.prev = 0x00 := (prevIsLastConsumedByte s t ht).1 f 0x00 hzero
  exact State.readState_of_pos_one (step_pos_of_sync herror hprev hu)

/-- Settles O30: a checksum byte leaves the code of its verdict, which is never NONE, and every other cycle leaves
NONE. -/
theorem outcomeCodeOfEveryCycle : Obligations.OutcomeCodeOfEveryCycle := by
  intro s t hp ht
  obtain ⟨u, hu, rfl⟩ := exec_of_step ht
  rw [State.retire_outEvent]
  by_cases hchk : ∃ f b, s.fetch = .rxChk f b
  · obtain ⟨f, b, op⟩ := hchk
    rw [op] at hu ⊢
    rw [exec_rxChk_outEvent hu, exists_rxChk_eq_and_iff, exists_rxChk_eq_and_iff]
    exact ⟨outcomeOf_eq_verified_iff, outcomeOf_eq_rejected_iff,
      iff_of_false (outcomeOf_ne_none _) fun hno => hno f b rfl⟩
  · have hno : ∀ f b, s.fetch ≠ .rxChk f b := fun f b op => hchk ⟨f, b, op⟩
    have hnone : ∀ ok, ¬ ∃ f b, s.fetch = .rxChk f b ∧ s.frameOk b = ok := fun _ ⟨f, b, op, _⟩ => hno f b op
    rw [exec_fetch_outEvent_of_no_check hp hno hu]
    exact ⟨iff_of_false (by decide) (hnone true), iff_of_false (by decide) (hnone false), iff_of_true rfl hno⟩

end Sys2Proof.Machine
end

section
/-! Reset and inputs (70_reset_and_hazards.md): the register values of a reset cycle (R119), and `legacy_mode`, which
no operation but RESET reads (R123). -/

namespace Sys2Proof.Machine

/-- R21, R123: RESET alone writes the configuration. -/
theorem exec_keeps_cfgLegacy {i : Instr} {s t : State} (h : exec i s = .next t) (hreset : i ≠ .reset) :
    t.cfgLegacy = s.cfgLegacy := by
  cases i with
  | reset => exact absurd rfl hreset
  | rxChk f b =>
    rcases hk : s.frameOk b with _ | _
    · rw [exec_rxChk_fail s f b hk] at h
      cases h
      rfl
    · rw [exec_rxChk_pass s f b hk] at h
      cases h
      rfl
  | rxData f b =>
    rw [exec_rxData] at h
    cases h
    rfl
  | _ =>
    cases h
    rfl

/-! ### Another level of `legacy_mode` reaches no register but in a reset cycle -/

/-- The state with another level of `legacy_mode` at its ports. -/
def State.withLegacyMode (s : State) (l : Bool) : State := { s with pins := { s.pins with legacyMode := l } }

/-- R51: the selection reads no `legacy_mode`. -/
theorem fetch_withLegacyMode (s : State) (l : Bool) : (s.withLegacyMode l).fetch = s.fetch := rfl

/-- Under every operation but RESET another level of `legacy_mode` stays at the ports and changes nothing else. -/
theorem exec_withLegacyMode {i : Instr} {s t : State} (l : Bool) (h : exec i s = .next t) (hreset : i ≠ .reset) :
    exec i (s.withLegacyMode l) = .next (t.withLegacyMode l) := by
  cases i with
  | reset => exact absurd rfl hreset
  | rxChk f b =>
    rcases hk : s.frameOk b with _ | _
    · rw [exec_rxChk_fail s f b hk] at h
      cases h
      exact exec_rxChk_fail _ f b hk
    · rw [exec_rxChk_pass s f b hk] at h
      cases h
      exact exec_rxChk_pass _ f b hk
  | rxData f b =>
    rw [exec_rxData] at h
    cases h
    exact exec_rxData _ f b
  | _ =>
    cases h
    rfl

/-- The edge of a clock cycle replaces all port levels, whatever they were. -/
theorem State.retire_withPins {s : State} (p : Pins) (h : s.probe = none) :
    ({ s with pins := p } : State).retire = s.retire := by
  cases hp : s.pending <;> simp [State.retire, h, hp]

/-- R123: in a clock cycle that is no reset cycle the level of `legacy_mode` makes no difference. -/
theorem step_withLegacyMode {s : State} (l : Bool) (hp : s.probe = none) (hr : ¬ s.resetting) :
    step (s.withLegacyMode l) = step s := by
  obtain ⟨t, ht⟩ := exec_total s.fetch s
  have hother : exec (s.withLegacyMode l).fetch (s.withLegacyMode l) = .next (t.withLegacyMode l) := by
    rw [fetch_withLegacyMode]
    exact exec_withLegacyMode l ht (fetch_eq_reset_iff.not.mpr hr)
  obtain ⟨-, -, hprobe⟩ := exec_environment _ _ _ ht
  have hedge : (t.withLegacyMode l).retire = t.retire := State.retire_withPins _ (hprobe.trans hp)
  rw [step_of_exec hother, step_of_exec ht, hedge]

/-! ### The statements -/

/-- Settles O27: RESET loads the level at the port; no other operation writes the configuration or reads the level. -/
theorem legacyModeReadOnlyInReset : Obligations.LegacyModeReadOnlyInReset := by
  refine ⟨fun s t h ht => ?_, fun s t h ht => ?_, fun s l hp hr => ?_⟩
  · obtain ⟨u, hu, rfl⟩ := exec_of_step ht
    rw [fetch_of_resetting h, exec_reset] at hu
    cases hu
    rw [State.retire_cfgLegacy, State.loadReset_cfgLegacy]
  · obtain ⟨u, hu, rfl⟩ := exec_of_step ht
    rw [State.retire_cfgLegacy]
    exact exec_keeps_cfgLegacy hu (fetch_eq_reset_iff.not.mpr h)
  · exact step_withLegacyMode l hp fun h => Bool.false_ne_true (hr.symm.trans h.2)

/-- Settles O1: the selection of a reset cycle, and the spec lemma of RESET. -/
theorem resetCycleLoadsResetValues : Obligations.ResetCycleLoadsResetValues :=
  fun s h => ⟨fetch_of_resetting h, exec_reset s⟩

end Sys2Proof.Machine
end

section
/-! Decode and encode (30_encoding.md): the masks of the lookup rows as ranges of identifiers (R53, R54), and that
decode and encode undo each other. -/

namespace Sys2Proof

/-! ### The lookup rows by ranges of identifiers (R53, R54) -/

theorem and_dlc2_mask_iff : ∀ id : Ident, id &&& 0x20 = 0x00 ↔ id.toNat ≤ 0x1F := by decide

theorem and_dlc4_mask_iff : ∀ id : Ident, id &&& 0x30 = 0x20 ↔ 0x20 ≤ id.toNat ∧ id.toNat ≤ 0x2F := by decide

theorem decodeId_of_le {id : Ident} (h : id.toNat ≤ 0x1F) : decodeId id = .dlc2 id :=
  if_pos ((and_dlc2_mask_iff id).mpr h)

theorem decodeId_of_mid {id : Ident} (h20 : 0x20 ≤ id.toNat) (h2F : id.toNat ≤ 0x2F) : decodeId id = .dlc4 id := by
  rw [decodeId, if_neg (by rw [and_dlc2_mask_iff]; omega), if_pos ((and_dlc4_mask_iff id).mpr ⟨h20, h2F⟩)]

theorem decodeId_of_ge {id : Ident} (h : 0x30 ≤ id.toNat) : decodeId id = .dlc8 id := by
  rw [decodeId, if_neg (by rw [and_dlc2_mask_iff]; omega), if_neg (by rw [and_dlc4_mask_iff]; omega)]

theorem mkSw_and_legacy_mask_iff : ∀ (l : Bool) (id : Ident), mkSw l id &&& 0x40 = 0x40 ↔ l = true := by decide

theorem mkSw_and_diag_mask_iff : ∀ (l : Bool) (id : Ident),
    mkSw l id &&& 0x7C = 0x3C ↔ l = false ∧ 0x3C ≤ id.toNat := by decide

theorem mkSw_extract_id (l : Bool) (id : Ident) : (mkSw l id).extractLsb' 0 6 = id := by
  rw [mkSw, BitVec.extractLsb'_append_eq_right]

/-- A selector is its fields (R54). -/
theorem mkSw_fields : ∀ sw : BitVec 7, mkSw (sw.getLsbD 6) (sw.extractLsb' 0 6) = sw := by decide

theorem decodeSw_legacy (id : Ident) : decodeSw (mkSw true id) = .chkClassicLegacy id := by
  rw [decodeSw, if_pos ((mkSw_and_legacy_mask_iff _ _).mpr rfl), mkSw_extract_id]

theorem mkSw_false_and_legacy_mask (id : Ident) : ¬ mkSw false id &&& 0x40 = 0x40 :=
  (mkSw_and_legacy_mask_iff false id).not.mpr Bool.false_ne_true

theorem decodeSw_diag {id : Ident} (h : 0x3C ≤ id.toNat) : decodeSw (mkSw false id) = .chkClassicDiag id := by
  rw [decodeSw, if_neg (mkSw_false_and_legacy_mask id), if_pos ((mkSw_and_diag_mask_iff _ _).mpr ⟨rfl, h⟩),
    mkSw_extract_id]

theorem decodeSw_enhanced {id : Ident} (h : id.toNat ≤ 0x3B) : decodeSw (mkSw false id) = .chkEnhanced id := by
  rw [decodeSw, if_neg (mkSw_false_and_legacy_mask id), if_neg (by rw [mkSw_and_diag_mask_iff]; omega),
    mkSw_extract_id]

/-! ### The position rows (R51) -/

theorem decodeIw_reset (v f : Bool) (d : Byte) (q : Seq) : decodeIw (mkIw true v f d) q = .reset := by
  rw [decodeIw, if_pos (iwRst_mkIw ..)]

theorem decodeIw_idle (f : Bool) (d : Byte) (q : Seq) : decodeIw (mkIw false false f d) q = .idle := by
  simp [decodeIw]

theorem decodeIw_byte (f : Bool) (b : Byte) (q : Seq) :
    decodeIw (mkIw false true f b) q =
      if syncDetected f q.prev = true then .rxSync b else q.positionOp f b := by
  rw [decodeIw_of_byte q (iwRst_mkIw ..) (iwValid_mkIw ..), iwFerr_mkIw, iwData_mkIw]

theorem decodeIw_sync {q : Seq} (b : Byte) (h : q.prev = 0x00) : decodeIw (mkIw false true true b) q = .rxSync b := by
  rw [decodeIw_byte, if_pos (syncDetected_eq_true_iff.mpr ⟨rfl, h⟩)]

theorem decodeIw_position {q : Seq} {f : Bool} (b : Byte) (h : syncDetected f q.prev = false) :
    decodeIw (mkIw false true f b) q = q.positionOp f b := by
  rw [decodeIw_byte, if_neg (Bool.eq_false_iff.mp h)]

/-! ### The condition of each position row in the opcode table -/

section PositionRows

variable {q : Seq} {f : Bool} {b : Byte}

theorem cond_rxSlot0_iff : (Instr.rxSlot0 f b).cond q = true ↔ syncDetected f q.prev = false ∧ q.pos.toNat = 0 := by
  simp only [Instr.cond, syncDetected, Bool.and_eq_true, Bool.not_eq_true', decide_eq_true_eq]

theorem cond_rxPid_iff : (Instr.rxPid f b).cond q = true ↔ syncDetected f q.prev = false ∧ q.pos.toNat = 1 := by
  simp only [Instr.cond, syncDetected, Bool.and_eq_true, Bool.not_eq_true', decide_eq_true_eq]

theorem cond_rxIgnore_iff : (Instr.rxIgnore f b).cond q = true ↔ syncDetected f q.prev = false ∧ 11 ≤ q.pos.toNat := by
  simp only [Instr.cond, syncDetected, Bool.and_eq_true, Bool.not_eq_true', decide_eq_true_eq]

theorem cond_rxChk_iff : (Instr.rxChk f b).cond q = true ↔
    syncDetected f q.prev = false ∧ 2 ≤ q.pos.toNat ∧ q.pos.toNat ≤ 10 ∧
      (q.pos.toNat = 2 + q.wDlc ∨ q.pos.toNat = 10) := by
  simp only [Instr.cond, syncDetected, Bool.and_eq_true, Bool.or_eq_true, Bool.not_eq_true', decide_eq_true_eq,
    and_assoc]

theorem cond_rxData_iff : (Instr.rxData f b).cond q = true ↔
    syncDetected f q.prev = false ∧ 2 ≤ q.pos.toNat ∧ q.pos.toNat ≤ 9 ∧ q.pos.toNat ≠ 2 + q.wDlc := by
  simp only [Instr.cond, syncDetected, Bool.and_eq_true, Bool.not_eq_true', decide_eq_true_eq, and_assoc]

/-- The row a position selects meets its condition in the opcode table. -/
theorem Seq.positionOp_cond (h : syncDetected f q.prev = false) : (q.positionOp f b).cond q = true := by
  unfold Seq.positionOp
  split_ifs with h0 h1 h11 hc
  · exact cond_rxSlot0_iff.mpr ⟨h, h0⟩
  · exact cond_rxPid_iff.mpr ⟨h, h1⟩
  · exact cond_rxIgnore_iff.mpr ⟨h, h11⟩
  · exact cond_rxChk_iff.mpr ⟨h, by omega, by omega, hc⟩
  · exact cond_rxData_iff.mpr ⟨h, by omega, by omega, by omega⟩

theorem Seq.positionOp_wf : (q.positionOp f b).wf = true := by
  unfold Seq.positionOp
  split_ifs <;> rfl

theorem Seq.encode_positionOp : encode (q.positionOp f b) = .iw (mkIw false true f b) := by
  unfold Seq.positionOp
  split_ifs <;> rfl

end PositionRows

/-! ### The statements -/

/-- The word of a well-formed operation carries the fixed bits of its row. -/
theorem Instr.row_admits_encode {i : Instr} (h : i.wf = true) : i.row.admits (encode i) = true := by
  cases i with
  | reset => exact Laws.EncodesToRow.reset h
  | idle => exact Laws.EncodesToRow.idle h
  | rxSync b => exact Laws.EncodesToRow.rxSync b h
  | rxSlot0 f b => exact Laws.EncodesToRow.rxSlot0 f b h
  | rxPid f b => exact Laws.EncodesToRow.rxPid f b h
  | rxIgnore f b => exact Laws.EncodesToRow.rxIgnore f b h
  | rxChk f b => exact Laws.EncodesToRow.rxChk f b h
  | rxData f b => exact Laws.EncodesToRow.rxData f b h
  | dlc2 id => exact Laws.EncodesToRow.dlc2 id h
  | dlc4 id => exact Laws.EncodesToRow.dlc4 id h
  | dlc8 id => exact Laws.EncodesToRow.dlc8 id h
  | chkClassicLegacy id => exact Laws.EncodesToRow.chkClassicLegacy id h
  | chkClassicDiag id => exact Laws.EncodesToRow.chkClassicDiag id h
  | chkEnhanced id => exact Laws.EncodesToRow.chkEnhanced id h

/-- Settles O20: row by row, the row's condition or the range of its identifier steers the decoder to it. -/
theorem decodeOfEncodeIsInstruction : Obligations.DecodeOfEncodeIsInstruction := by
  intro i q hwf hcond
  cases i with
  | reset => exact decodeIw_reset _ _ _ q
  | idle => exact decodeIw_idle _ _ q
  | rxSync b => exact decodeIw_sync b (beq_iff_eq.mp hcond)
  | rxSlot0 f b =>
    obtain ⟨hs, h0⟩ := cond_rxSlot0_iff.mp hcond
    exact (decodeIw_position b hs).trans (if_pos h0)
  | rxPid f b =>
    obtain ⟨hs, h1⟩ := cond_rxPid_iff.mp hcond
    refine (decodeIw_position b hs).trans ?_
    rw [Seq.positionOp, if_neg (by omega), if_pos h1]
  | rxIgnore f b =>
    obtain ⟨hs, h11⟩ := cond_rxIgnore_iff.mp hcond
    refine (decodeIw_position b hs).trans ?_
    rw [Seq.positionOp, if_neg (by omega), if_neg (by omega), if_pos h11]
  | rxChk f b =>
    obtain ⟨hs, h2, h10, hc⟩ := cond_rxChk_iff.mp hcond
    refine (decodeIw_position b hs).trans ?_
    rw [Seq.positionOp, if_neg (by omega), if_neg (by omega), if_neg (by omega), if_pos hc]
  | rxData f b =>
    obtain ⟨hs, h2, h9, hc⟩ := cond_rxData_iff.mp hcond
    refine (decodeIw_position b hs).trans ?_
    rw [Seq.positionOp, if_neg (by omega), if_neg (by omega), if_neg (by omega), if_neg (by omega)]
  | dlc2 id => exact decodeId_of_le (of_decide_eq_true hwf)
  | dlc4 id =>
    obtain ⟨h20, h2F⟩ := Bool.and_eq_true_iff.mp hwf
    exact decodeId_of_mid (of_decide_eq_true h20) (of_decide_eq_true h2F)
  | dlc8 id => exact decodeId_of_ge (of_decide_eq_true hwf)
  | chkClassicLegacy id => exact decodeSw_legacy id
  | chkClassicDiag id => exact decodeSw_diag (of_decide_eq_true hwf)
  | chkEnhanced id => exact decodeSw_enhanced (of_decide_eq_true hwf)

/-- The word selects `i`, whose row admits the sequencing state, and no bit of the word is lost. -/
structure DecodesTo (w : OpWord) (q : Seq) (i : Instr) : Prop where
  selects : decode w q = i
  wf : i.wf = true
  cond : i.cond q = true
  encodes : encode i = w

theorem decodesTo_byte (q : Seq) (f : Bool) (b : Byte) : ∃ i, DecodesTo (.iw (mkIw false true f b)) q i := by
  rcases hs : syncDetected f q.prev with _ | _
  · exact ⟨_, decodeIw_position b hs, Seq.positionOp_wf, Seq.positionOp_cond hs, Seq.encode_positionOp⟩
  · obtain ⟨rfl, hz⟩ := syncDetected_eq_true_iff.mp hs
    exact ⟨_, decodeIw_sync b hz, rfl, beq_iff_eq.mpr hz, rfl⟩

theorem decodesTo_id (q : Seq) (id : Ident) : ∃ i, DecodesTo (.id id) q i := by
  rcases le_or_gt id.toNat 0x1F with h1F | h1F
  · exact ⟨_, decodeId_of_le h1F, decide_eq_true h1F, rfl, rfl⟩
  rcases le_or_gt id.toNat 0x2F with h2F | h2F
  · exact ⟨_, decodeId_of_mid h1F h2F,
      Bool.and_eq_true_iff.mpr ⟨decide_eq_true h1F, decide_eq_true h2F⟩, rfl, rfl⟩
  · exact ⟨_, decodeId_of_ge h2F, decide_eq_true h2F, rfl, rfl⟩

theorem decodesTo_sw (q : Seq) (l : Bool) (id : Ident) : ∃ i, DecodesTo (.sw (mkSw l id)) q i := by
  cases l with
  | true => exact ⟨_, decodeSw_legacy id, rfl, rfl, rfl⟩
  | false =>
    rcases le_or_gt id.toNat 0x3B with h3B | h3B
    · exact ⟨_, decodeSw_enhanced h3B, decide_eq_true h3B, decide_eq_true (by omega), rfl⟩
    · exact ⟨_, decodeSw_diag h3B, decide_eq_true h3B, rfl, rfl⟩

/-- Masking a word masks its fields. -/
theorem mkIw_and (r v f r' v' f' : Bool) (d d' : Byte) :
    mkIw r v f d &&& mkIw r' v' f' d' = mkIw (r && r') (v && v') (f && f') (d &&& d') :=
  BitVec.and_append.trans (by simp only [BitVec.and_append, BitVec.ofBool_and_ofBool]; rfl)

/-- The fixed bit of RESET: the others are ignored (R50). -/
theorem mkIw_reset_bit (v f : Bool) (d : Byte) : mkIw true v f d &&& 0x400#11 = 0x400#11 := by
  have hmask : 0x400#11 = mkIw true false false 0#8 := by decide
  rw [hmask, mkIw_and, Bool.and_false, Bool.and_false, BitVec.and_zero, Bool.and_true]

/-- The fixed bits of IDLE: the others are ignored (R50). -/
theorem mkIw_idle_bits (f : Bool) (d : Byte) : mkIw false false f d &&& 0x600#11 = 0x000#11 := by
  have hmask : 0x600#11 = mkIw true true false 0#8 := by decide
  have hmatch : mkIw false false false 0#8 = 0x000#11 := by decide
  rw [hmask, mkIw_and, Bool.and_false, Bool.and_true, BitVec.and_zero, hmatch]

/-- A word is RESET's or IDLE's, or one that loses no bit. -/
theorem decode_cases (w : OpWord) (q : Seq) :
    (decode w q = .reset ∧ Instr.reset.row.admits w = true) ∨ (decode w q = .idle ∧ Instr.idle.row.admits w = true) ∨
      ∃ i, DecodesTo w q i := by
  cases w with
  | iw w =>
    obtain ⟨r, v, f, d, rfl⟩ : ∃ r v f d, w = mkIw r v f d := ⟨_, _, _, _, (mkIw_fields w).symm⟩
    cases r with
    | true => exact .inl ⟨decodeIw_reset v f d q, beq_iff_eq.mpr (mkIw_reset_bit v f d)⟩
    | false =>
      cases v with
      | false => exact .inr (.inl ⟨decodeIw_idle f d q, beq_iff_eq.mpr (mkIw_idle_bits f d)⟩)
      | true => exact .inr (.inr (decodesTo_byte q f d))
  | id id => exact .inr (.inr (decodesTo_id q id))
  | sw sw => exact .inr (.inr (mkSw_fields sw ▸ decodesTo_sw q _ _))

/-- Settles O21: a word that loses no bit carries its row's fixed bits because its operation's encoding does. -/
theorem encodeOfDecodeIsWord : Obligations.EncodeOfDecodeIsWord := by
  intro w q
  rcases decode_cases w q with ⟨hop, hbits⟩ | ⟨hop, hbits⟩ | ⟨i, hop, hwf, hcond, henc⟩
  · rw [hop]
    exact ⟨rfl, rfl, hbits, fun hne => absurd rfl hne⟩
  · rw [hop]
    exact ⟨rfl, rfl, hbits, fun _ hne => absurd rfl hne⟩
  · rw [hop]
    exact ⟨hwf, hcond, henc ▸ Instr.row_admits_encode hwf, fun _ _ => henc⟩

/-- Settles O19: the model's decoder run on the ten words. -/
theorem writtenWordsDecode : Obligations.WrittenWordsDecode := by
  unfold Obligations.WrittenWordsDecode
  decide

/-! ### Words of the opcode table, placed (log 10) -/

namespace Machine

theorem decodeTableWord_eq_some {nbits w : Nat} {i : Instr} (h : decodeTableWord nbits w = some i) :
    ∃ ow, tableWord nbits w = .ok ow ∧ decode ow tableSeq = i := by
  unfold decodeTableWord decodeNumber at h
  cases hw : tableWord nbits w with
  | error e => simp [hw] at h
  | ok ow => exact ⟨ow, rfl, by simpa [hw] using h⟩

/-- The word, read in the state that it is placed in, is what the table reads it as. -/
theorem fetch_placeWord (s : State) (ow : OpWord) : (s.placeWord ow).fetch = decode ow tableSeq := by
  cases ow with
  | id id => rfl
  | sw sw => rfl
  | iw w =>
    obtain ⟨r, v, f, d, rfl⟩ : ∃ r v f d, w = mkIw r v f d := ⟨_, _, _, _, (mkIw_fields w).symm⟩
    change _ = decodeIw (mkIw r v f d) tableSeq
    rw [State.placeWord]
    cases r with
    | true => rw [decodeIw_reset]; exact decodeIw_reset ..
    | false =>
      cases v with
      | false => rw [decodeIw_idle]; exact decodeIw_idle ..
      | true =>
        cases f with
        | true => rw [decodeIw_sync d rfl]; exact decodeIw_sync d rfl
        | false =>
          have hwait : decodeIw (mkIw false true false d) tableSeq = .rxIgnore false d := decodeIw_position d rfl
          rw [hwait]
          exact decodeIw_position d rfl

/-- Settles O23: a number of the table is a word, and a placed word is fetched as the table reads it. -/
theorem placedTableWordIsFetched : Obligations.PlacedTableWordIsFetched := by
  intro s nbits w i h
  obtain ⟨ow, hw, hop⟩ := decodeTableWord_eq_some h
  rw [State.withFetchWord, State.placeNumber, hw]
  exact (fetch_placeWord s ow).trans hop

/-- Settles O22: the three cases of the edge after the operation, which touches none of the fields they read. -/
theorem stepRunsDecodedInstruction : Obligations.StepRunsDecodedInstruction := by
  rintro s t i rfl ht
  obtain ⟨-, hpending, hprobe⟩ := exec_environment _ _ _ ht
  have hstep : step s = .next t.retire := step_of_exec ht
  refine ⟨fun p hp => ?_, fun hp hq => ?_, fun p ps hp hq => ?_⟩
  · rw [hstep, State.retire_of_probe (hprobe.trans hp)]
  · rw [hstep, State.retire_of_last (hprobe.trans hp) (hpending.trans hq)]
  · rw [hstep, State.retire_of_next (hprobe.trans hp) (hpending.trans hq)]

end Machine
end Sys2Proof
end

section
/-! The checksum relation of a transmitter (43_checksum.md, R96), and what the combinational rows show of length and
checksum (R84, R93, R94), the row that a frame selects among them. -/

namespace Sys2Proof.Machine

/-! ### The transmitter's byte is the one that passes -/

/-- R92 and R96 are one equation, solved for the sum or for the checksum byte. -/
theorem checksumOk_iff_eq_transmitterChecksum (pid : Byte) (data : List Byte) (c : Byte) (id : Ident) (legacy : Bool) :
    checksumOk pid data c id legacy = true ↔ c = transmitterChecksum (schemeOf legacy id) pid data := by
  rw [checksumOk, beq_iff_eq, schemeSum_eq, transmitterChecksum, eq_sub_iff_add_eq']

/-- Settles O15. -/
theorem exactlyOneChecksumBytePasses : Obligations.ExactlyOneChecksumBytePasses :=
  checksumOk_iff_eq_transmitterChecksum

/-! ### One payload byte changed -/

/-- Replacing one byte moves the sum by the difference of the two bytes. -/
theorem sum8_set_add (data : List Byte) {k : Nat} (h : k < data.length) (x : Byte) :
    sum8 (data.set k x) + data[k] = sum8 data + x := by
  induction data generalizing k with
  | nil => exact absurd h (Nat.not_lt_zero k)
  | cons y ys ih =>
    cases k with
    | zero =>
      simp only [List.set_cons_zero, sum8_cons, List.getElem_cons_zero]
      ring
    | succ k =>
      have hk : k < ys.length := Nat.lt_of_succ_lt_succ h
      simp only [List.set_cons_succ, sum8_cons, List.getElem_cons_succ, add_assoc, ih hk]

/-- Both schemes cover the payload, so that payloads of another sum have another transmitter's byte. -/
theorem transmitterChecksum_inj {scheme : Scheme} {pid : Byte} {data data' : List Byte} :
    transmitterChecksum scheme pid data = transmitterChecksum scheme pid data' ↔ sum8 data = sum8 data' := by
  rw [transmitterChecksum, transmitterChecksum, sub_right_inj]
  cases scheme with
  | classic => rfl
  | enhanced => simp only [covered, sum8_cons, add_right_inj]

/-- Settles O16: if the changed payload passed as well, both would have the same transmitter's byte, hence the same
sum, hence the same byte at the position. -/
theorem mutatedPayloadByteFails : Obligations.MutatedPayloadByteFails := by
  intro pid data c id legacy k x h hx hpass
  refine Bool.eq_false_of_not_eq_true fun hpass' => hx ?_
  rw [checksumOk_iff_eq_transmitterChecksum] at hpass hpass'
  have hsum : sum8 (data.set k x) = sum8 data := transmitterChecksum_inj.mp (hpass'.symm.trans hpass)
  have hmoved := sum8_set_add data h x
  rw [hsum, add_right_inj] at hmoved
  exact hmoved.symm

/-! ### The length rows (R84) -/

theorem dlc_of_le {id : Ident} (h : id.toNat ≤ 0x1F) : dlc id = 2 := if_pos h

theorem dlc_of_mid {id : Ident} (h20 : 0x20 ≤ id.toNat) (h2F : id.toNat ≤ 0x2F) : dlc id = 4 := by
  rw [dlc, if_neg (by omega), if_pos h2F]

theorem dlc_of_ge {id : Ident} (h : 0x30 ≤ id.toNat) : dlc id = 8 := by
  rw [dlc, if_neg (by omega), if_neg (by omega)]

/-- Settles O10: in each range the row and the length it shows. -/
theorem dlcRowsShowTheirLength : Obligations.DlcRowsShowTheirLength :=
  fun id _ s =>
    ⟨fun h => ⟨decodeId_of_le h, by rw [exec_dlc2, dlc_of_le h]⟩,
      fun h20 h2F => ⟨decodeId_of_mid h20 h2F, by rw [exec_dlc4, dlc_of_mid h20 h2F]⟩,
      fun h => ⟨decodeId_of_ge h, by rw [exec_dlc8, dlc_of_ge h]⟩⟩

/-! ### The checksum rows (R93, R94) -/

theorem or_setWidth_eq_mkSw : ∀ id : Ident, 0x40#7 ||| id.setWidth 7 = mkSw true id := by decide

theorem setWidth_eq_mkSw : ∀ id : Ident, id.setWidth 7 = mkSw false id := by decide

/-- Settles O11: the classic scheme covers the payload alone. -/
theorem classicRowsShowPayloadSum : Obligations.ClassicRowsShowPayloadSum := by
  rintro id q s t rfl
  rw [or_setWidth_eq_mkSw, setWidth_eq_mkSw]
  exact ⟨⟨decodeSw_legacy id, exec_chkClassicLegacy s id⟩,
    fun h => ⟨decodeSw_diag h, exec_chkClassicDiag s id⟩⟩

/-- Settles O12: the enhanced scheme covers the PID byte and the payload. -/
theorem enhancedRowShowsPidAndPayloadSum : Obligations.EnhancedRowShowsPidAndPayloadSum := by
  intro id q s h
  rw [setWidth_eq_mkSw]
  exact ⟨decodeSw_enhanced h, exec_chkEnhanced s id⟩

/-- R54 and R88 agree: the row of a selector checks by the scheme of its flag and identifier. -/
theorem exec_decodeSw (l : Bool) (id : Ident) (s : State) :
    exec (decodeSw (mkSw l id)) s = .next (s.showCheck (schemeOf l id) id) := by
  cases l with
  | true => rw [decodeSw_legacy, exec_chkClassicLegacy, schemeOf, if_pos (.inl rfl)]
  | false =>
    rcases le_or_gt id.toNat 0x3B with h | h
    · rw [decodeSw_enhanced h, exec_chkEnhanced, schemeOf, if_neg (by simp; omega)]
    · rw [decodeSw_diag h, exec_chkClassicDiag, schemeOf, if_pos (.inr h)]

/-- Settles O13: with the byte of the cycle at the data port, the row's verdict is the one of RX_CHK. -/
theorem outcomeIsVerdictOfSelectedRow : Obligations.OutcomeIsVerdictOfSelectedRow := by
  intro s f b h _
  obtain ⟨-, -, -, -, hdata⟩ := h
  refine ⟨_, _, _, exec_rxChk_eq_takeChecksum f b s, exec_decodeSw s.cfgLegacy s.wId s,
    State.showCheck_chkOut _ _ _, rfl, ?_⟩
  rw [hdata]
  rfl

end Sys2Proof.Machine
end

section
/-! What a step can do, said once over the two ways a byte is taken (R68): the inversion lemma that the frame rules
of the operations, the invariant and the bounds on runs are derived from. -/

namespace Sys2Proof.Machine

/-! ### The fields of a state that has taken a byte -/

section TakenByte

variable (s : State) (p : Nat) (b : Byte)

@[simp] theorem State.takeByte_raw : (s.takeByte p b).raw = s.raw.setIfInBounds p b := s.storeAndAdvance_raw p b
@[simp] theorem State.takeByte_prev : (s.takeByte p b).prev = b := rfl
@[simp] theorem State.takeByte_outEvent : (s.takeByte p b).outEvent = outcomeNone := rfl
@[simp] theorem State.takeByte_vraw : (s.takeByte p b).vraw = s.vraw := s.storeAndAdvance_vraw p b
@[simp] theorem State.takeByte_vValid : (s.takeByte p b).vValid = s.vValid := s.storeAndAdvance_vValid p b
@[simp] theorem State.takeByte_cfgLegacy : (s.takeByte p b).cfgLegacy = s.cfgLegacy := s.storeAndAdvance_cfgLegacy p b

theorem State.takeByte_pos_toNat {p : Nat} (h : p < 16) :
    (s.takeByte p b).pos.toNat = if p < 11 then p + 1 else p := by
  have hpos : (s.takeByte p b).pos = BitVec.ofNat 4 (if p < 11 then p + 1 else p) := s.storeAndAdvance_pos p b
  rw [hpos, BitVec.toNat_ofNat, Nat.mod_eq_of_lt]
  split <;> omega

/-- R86: a byte stored in another slot than 1 keeps the length. -/
theorem State.takeByte_wDlc {p : Nat} (h : p ≠ 1) : (s.takeByte p b).wDlc = s.wDlc :=
  wDlc_congr (by simp [h])

theorem State.takeByte_sameSurroundings : s.sameSurroundings (s.takeByte p b) :=
  ⟨s.storeAndAdvance_cfgLegacy p b, s.storeAndAdvance_pins p b, s.storeAndAdvance_pending p b,
    s.storeAndAdvance_probe p b, s.storeAndAdvance_dlcOut p b, s.storeAndAdvance_chkOut p b⟩

/-- R98: a passing check publishes first. -/
theorem State.takeChecksum_of_pass (h : s.frameOk b = true) :
    s.takeChecksum b =
      (((s.publish b).storeAndAdvance Config.chkSlot b).latchByte b).report outcomeVerified := by
  simp only [State.takeChecksum, h, if_true, outcomeOf]

/-- R97: a failing check publishes nothing. -/
theorem State.takeChecksum_of_fail (h : s.frameOk b = false) :
    s.takeChecksum b = ((s.storeAndAdvance Config.chkSlot b).latchByte b).report outcomeRejected := by
  simp only [State.takeChecksum, h, Bool.false_eq_true, if_false, outcomeOf]

@[simp] theorem State.takeChecksum_outEvent : (s.takeChecksum b).outEvent = outcomeOf (s.frameOk b) := rfl

@[simp] theorem State.takeChecksum_pos : (s.takeChecksum b).pos = 11 := by
  rw [State.takeChecksum, State.report_pos, State.latchByte_pos, State.storeAndAdvance_pos]
  rfl

@[simp] theorem State.takeChecksum_raw : (s.takeChecksum b).raw = s.raw.set 10 b := by
  rw [← setIfInBounds_eq_set]
  rcases hk : s.frameOk b with _ | _
  · rw [s.takeChecksum_of_fail b hk]
    exact s.storeAndAdvance_raw _ b
  · rw [s.takeChecksum_of_pass b hk]
    exact (s.publish b).storeAndAdvance_raw _ b

theorem State.takeChecksum_sameSurroundings : s.sameSurroundings (s.takeChecksum b) := by
  rcases hk : s.frameOk b with _ | _
  · rw [s.takeChecksum_of_fail b hk]
    exact ⟨rfl, rfl, rfl, rfl, rfl, rfl⟩
  · rw [s.takeChecksum_of_pass b hk]
    exact ⟨rfl, rfl, rfl, rfl, rfl, rfl⟩

end TakenByte

/-! ### The frames of the operations -/

theorem slotRead_takeByte_of_ne (s : State) {p : Nat} (b : Byte) {j : Fin 11} (h : j.val ≠ p) :
    slotRead (s.takeByte p b).raw j = slotRead s.raw j :=
  (slotRead_storeAndAdvance s p b j).trans (if_neg h.symm)

theorem State.takeByte_sameVerified (s : State) (p : Nat) (b : Byte) : s.sameVerified (s.takeByte p b) :=
  ⟨fun _ => by rw [State.takeByte_vraw], s.takeByte_vValid p b⟩

/-- Settles O17: four of the operations take a plain byte at their slot, the fifth takes the checksum byte. -/
theorem storingOperationsKeepTheRest : Obligations.StoringOperationsKeepTheRest := by
  intro s t f b j
  have hplain : ∀ p, s.takeByte p b = t →
      (j.val ≠ p → slotRead t.raw j = slotRead s.raw j) ∧ s.sameVerified t ∧ s.sameSurroundings t := by
    rintro p rfl
    exact ⟨slotRead_takeByte_of_ne s b, s.takeByte_sameVerified p b, s.takeByte_sameSurroundings p b⟩
  refine ⟨fun h => hplain 0 (by cases h; rfl), fun h => hplain 0 (by cases h; rfl),
    fun h => hplain 1 (by cases h; rfl), fun h => hplain _ (by cases h; rfl), fun h => ?_⟩
  rw [exec_rxChk_eq_takeChecksum] at h
  cases h
  refine ⟨fun hj => ?_, fun hfail => ?_, s.takeChecksum_sameSurroundings b⟩
  · rw [State.takeChecksum_raw, slotRead_set_checksum, if_neg hj]
  · rw [s.takeChecksum_of_fail b hfail]
    exact ⟨fun _ => rfl, rfl⟩

/-- Settles O18: each next state is the one before but for the fields its operation names. -/
theorem nonStoringOperationsKeepTheRest : Obligations.NonStoringOperationsKeepTheRest := by
  intro s t i f b id j hi ht
  have kept {p q r k : Prop} (h : k) : p ∨ q ∨ r ∨ k := .inr (.inr (.inr h))
  rcases hi with rfl | rfl | rfl | rfl | rfl | rfl | rfl | rfl
  all_goals
    cases ht
    refine ⟨rfl, ⟨fun _ => rfl, rfl⟩, rfl, rfl, rfl, rfl, rfl, ?_⟩
  · exact ⟨fun _ => ⟨rfl, rfl⟩, .inl rfl, kept rfl, kept rfl⟩
  · exact ⟨fun hne => absurd rfl hne, .inr (.inl rfl), kept rfl, kept rfl⟩
  · exact ⟨fun _ => ⟨rfl, rfl⟩, .inr (.inr rfl), kept rfl, .inl rfl⟩
  · exact ⟨fun _ => ⟨rfl, rfl⟩, .inr (.inr rfl), kept rfl, .inr (.inl rfl)⟩
  · exact ⟨fun _ => ⟨rfl, rfl⟩, .inr (.inr rfl), kept rfl, .inr (.inr (.inl rfl))⟩
  · exact ⟨fun _ => ⟨rfl, rfl⟩, .inr (.inr rfl), .inl rfl, kept rfl⟩
  · exact ⟨fun _ => ⟨rfl, rfl⟩, .inr (.inr rfl), .inr (.inl rfl), kept rfl⟩
  · exact ⟨fun _ => ⟨rfl, rfl⟩, .inr (.inr rfl), .inr (.inr (.inl rfl)), kept rfl⟩

/-! ### What a step does before the edge -/

/-- The state with a lookup's answer shown: the length (R84), or the verdict under the scheme that the selector's flag
and identifier name (R93, R94). -/
def LookupWord.answer (s : State) : LookupWord → State
  | .id w => s.showDlc w
  | .sw w => s.showCheck (schemeOf (w.getLsbD 6) (w.extractLsb' 0 6)) (w.extractLsb' 0 6)

theorem exec_fetch_of_lookup {s : State} {p : LookupWord} (h : s.probe = some p) :
    exec s.fetch s = .next (p.answer s) := by
  rw [fetch_of_lookup h]
  cases p with
  | id id =>
    change exec (decodeId id) s = _
    unfold decodeId
    split_ifs <;> rfl
  | sw sw =>
    change exec (decodeSw sw) s = _
    rw [← mkSw_fields sw, exec_decodeSw, mkSw_fields]
    rfl

/-- A lookup answers in the model's display fields alone. -/
theorem LookupWord.answer_eq (s : State) (p : LookupWord) :
    ∃ d c, p.answer s = { s with dlcOut := d, chkOut := c } := by
  cases p <;> exact ⟨_, _, rfl⟩

/-- All that the operation of a step can do, the edge that follows it left out. -/
inductive StepEffect (s : State) : State → Prop where
  | lookup (p : LookupWord) (h : s.probe = some p) (d : Option Nat) (c : Option CheckResult) :
    StepEffect s { s with dlcOut := d, chkOut := c }
  | reset (h : s.resetting) : StepEffect s (s.loadReset s.pins.legacyMode)
  | quiet (h : s.quiet) : StepEffect s { s with outEvent := outcomeNone }
  | plain (f : Bool) (b : Byte) (h : s.receives f b) (h10 : s.startPos f ≠ 10)
    (hn : s.startPos f < 2 ∨ s.startPos f ≠ 2 + s.wDlc) : StepEffect s (s.takeByte (s.startPos f) b)
  | checksum (f : Bool) (b : Byte) (h : s.receives f b) (h2 : 2 ≤ s.startPos f)
    (hn : s.startPos f = 2 + s.wDlc ∨ s.startPos f = 10) : StepEffect s (s.takeChecksum b)

theorem cycle_effect {s : State} (hp : s.probe = none) : StepEffect s (cycle s.pins s) := by
  cases hr : iwRst s.pins.iw with
  | true => exact cycle_of_resetting ⟨hp, hr⟩ ▸ .reset ⟨hp, hr⟩
  | false =>
    cases hv : iwValid s.pins.iw with
    | false => exact cycle_of_quiet ⟨hp, hr, hv⟩ ▸ .quiet ⟨hp, hr, hv⟩
    | true =>
      have h : s.receives (iwFerr s.pins.iw) (iwData s.pins.iw) := ⟨hp, hr, hv, rfl, rfl⟩
      by_cases hc : 2 ≤ s.startPos (iwFerr s.pins.iw) ∧
          (s.startPos (iwFerr s.pins.iw) = 2 + s.wDlc ∨ s.startPos (iwFerr s.pins.iw) = 10)
      · exact cycle_of_checksum_byte h hc.1 hc.2 ▸ .checksum _ _ h hc.1 hc.2
      · rw [cycle_of_plain_byte h (by omega) (by omega)]
        exact .plain _ _ h (by omega) (by omega)

/-- The inversion lemma of `step`: one of these effects, then the edge. -/
theorem step_effect {s t : State} (h : step s = .next t) : ∃ u, StepEffect s u ∧ t = u.retire := by
  obtain ⟨u, hu, rfl⟩ := exec_of_step h
  refine ⟨u, ?_, rfl⟩
  cases hp : s.probe with
  | some p =>
    rw [exec_fetch_of_lookup hp] at hu
    cases hu
    obtain ⟨d, c, hanswer⟩ := p.answer_eq s
    exact hanswer ▸ .lookup p hp d c
  | none =>
    rw [operationsEqualReadCycleStep s hp] at hu
    cases hu
    exact cycle_effect hp

theorem State.startPos_lt (s : State) (f : Bool) : s.startPos f < 16 := by
  unfold State.startPos
  split
  · omega
  · exact s.pos.isLt

/-- A byte is taken at the position, or as a sync at slot 0. -/
theorem State.startPos_eq (s : State) (f : Bool) : s.startPos f = 0 ∨ s.startPos f = s.pos.toNat := by
  unfold State.startPos
  split
  · exact .inl rfl
  · exact .inr rfl

/-! ### The length of the frame in assembly -/

/-- Settles O35: of the operations that are neither RX_PID nor RESET none stores in slot 1. -/
theorem lengthChangesOnlyWithPidByte : Obligations.LengthChangesOnlyWithPidByte := by
  intro s t ht
  constructor
  · intro f b hop
    obtain ⟨u, hu, rfl⟩ := exec_of_step ht
    rw [hop, exec_rxPid] at hu
    cases hu
    have hslot : (s.raw.set 1 b)[1] = b := Vector.getElem_set_self _
    rw [retire_wDlc]
    exact congrArg (fun x => dlc (idOf x)) hslot
  · intro hpid hreset
    obtain ⟨u, hu, rfl⟩ := step_effect ht
    rw [retire_wDlc]
    cases hu with
    | lookup p h d c => rfl
    | reset h => exact absurd (fetch_of_resetting h) hreset
    | quiet h => rfl
    | checksum f b h h2 hn => exact wDlc_congr (by simp)
    | plain f b h h10 hn =>
      refine s.takeByte_wDlc b fun h1 => hpid f b ?_
      have hpos : s.pos.toNat = 1 := by have := s.startPos_eq f; omega
      have hsync : ¬ (f = true ∧ s.prev = 0x00) := by
        rintro ⟨rfl, hz⟩
        exact absurd (h1.symm.trans (State.startPos_of_sync hz)) Nat.one_ne_zero
      rw [fetch_of_not_sync h hsync, positionOp_of_one f b hpos]

end Sys2Proof.Machine
end

section
/-! The invariant (10_state.md section 7) and the read cycle (R79), from what a step can do. -/

namespace Sys2Proof.Machine

/-! ### The invariant is one of registers -/

/-- The invariant reads six registers and nothing else. -/
theorem State.Inv.congr {s t : State} (h : s.Inv) (hpos : t.pos = s.pos) (hraw : t.raw = s.raw)
    (hcfg : t.cfgLegacy = s.cfgLegacy) (hvraw : t.vraw = s.vraw) (hvalid : t.vValid = s.vValid)
    (hevent : t.outEvent = s.outEvent ∨ t.outEvent = outcomeNone) : t.Inv where
  position := by
    have hlen : t.wDlc = s.wDlc := wDlc_congr (by rw [hraw])
    simpa only [State.posInv, hpos, hlen] using h.position
  verified := by simpa only [State.verifiedInv, hvalid, hvraw, hcfg] using h.verified
  event := by
    rcases hevent with hevent | hevent
    · simpa only [State.eventInv, hevent, hvalid, hvraw, hraw, hpos, hcfg] using h.event
    · exact .inl hevent

theorem State.Inv.retire {s : State} (h : s.Inv) : s.retire.Inv :=
  h.congr s.retire_pos s.retire_raw s.retire_cfgLegacy s.retire_vraw s.retire_vValid (.inl s.retire_outEvent)

/-- R119: the reset values, whatever the configuration and the time. -/
theorem State.inv_of_reset_values {s : State} (hpos : s.pos = 11) (hvraw : s.vraw = zeroSlots)
    (hvalid : s.vValid = false) (hevent : s.outEvent = outcomeNone) : s.Inv where
  position := .inr (.inl (by rw [hpos]; rfl))
  verified := by simpa only [State.verifiedInv, hvalid, Bool.false_eq_true, if_false] using hvraw
  event := .inl hevent

theorem State.loadReset_inv (s : State) (legacy : Bool) : (s.loadReset legacy).Inv :=
  State.inv_of_reset_values rfl rfl rfl rfl

/-! ### Every effect of a step keeps it -/

/-- R71 and R76: below the length a byte moves the position up by one, a sync moves it to 1. -/
theorem State.takeByte_posInv {s : State} {f : Bool} (b : Byte) (h : s.posInv) (h10 : s.startPos f ≠ 10)
    (hn : s.startPos f < 2 ∨ s.startPos f ≠ 2 + s.wDlc) : (s.takeByte (s.startPos f) b).posInv := by
  have hnew := s.takeByte_pos_toNat b (s.startPos_lt f)
  have hstart := s.startPos_eq f
  by_cases h1 : s.startPos f = 1
  · rw [h1] at hnew ⊢
    exact .inr (.inr ⟨hnew.ge, hnew.trans_le (Nat.le_add_right 2 _)⟩)
  · rw [State.posInv, s.takeByte_wDlc b h1, hnew]
    unfold State.posInv at h
    split <;> omega

theorem State.Inv.takeByte {s : State} {f : Bool} (b : Byte) (h : s.Inv) (h10 : s.startPos f ≠ 10)
    (hn : s.startPos f < 2 ∨ s.startPos f ≠ 2 + s.wDlc) : (s.takeByte (s.startPos f) b).Inv where
  position := State.takeByte_posInv b h.position h10 hn
  verified := by
    simpa only [State.verifiedInv, State.takeByte_vValid, State.takeByte_vraw, State.takeByte_cfgLegacy]
      using h.verified
  event := .inl rfl

/-- R77, R92: the verdict on the frame is that on the slots with the checksum byte stored, so a published frame passes
and a rejected one, left in `raw`, fails. -/
theorem State.Inv.takeChecksum {s : State} (b : Byte) (h : s.Inv) : (s.takeChecksum b).Inv := by
  have hpos := s.takeChecksum_pos b
  have hraw := s.takeChecksum_raw b
  have hcfg : (s.takeChecksum b).cfgLegacy = s.cfgLegacy := (s.takeChecksum_sameSurroundings b).1
  have hslots : slotsOk (s.takeChecksum b).raw (s.takeChecksum b).cfgLegacy = s.frameOk b := by
    rw [hraw, hcfg, slotsOk_set_checksum]
  have hposition : (s.takeChecksum b).posInv := .inr (.inl (by rw [hpos]; rfl))
  rcases hk : s.frameOk b with _ | _
  · have hvraw : (s.takeChecksum b).vraw = s.vraw := by rw [s.takeChecksum_of_fail b hk]; rfl
    have hvalid : (s.takeChecksum b).vValid = s.vValid := by rw [s.takeChecksum_of_fail b hk]; rfl
    refine ⟨hposition, ?_, .inr (.inr ⟨?_, hslots.trans hk, hpos⟩)⟩
    · simpa only [State.verifiedInv, hvraw, hvalid, hcfg] using h.verified
    · rw [State.takeChecksum_outEvent, hk]; rfl
  · have hvraw : (s.takeChecksum b).vraw = (s.takeChecksum b).raw := by
      rw [hraw, s.takeChecksum_of_pass b hk]; rfl
    have hvalid : (s.takeChecksum b).vValid = true := by rw [s.takeChecksum_of_pass b hk]; rfl
    refine ⟨hposition, ?_, .inr (.inl ⟨?_, hvalid, hvraw, hpos⟩)⟩
    · rw [State.verifiedInv, if_pos hvalid, hvraw, hslots, hk]
    · rw [State.takeChecksum_outEvent, hk]; rfl

theorem StepEffect.keeps_inv {s t : State} (e : StepEffect s t) (h : s.Inv) : t.Inv := by
  cases e with
  | lookup p hp d c => exact h.congr rfl rfl rfl rfl rfl (.inl rfl)
  | reset hr => exact s.loadReset_inv _
  | quiet hq => exact h.congr rfl rfl rfl rfl rfl (.inr rfl)
  | plain f b hb h10 hn => exact h.takeByte b h10 hn
  | checksum f b hb h2 hn => exact h.takeChecksum b

/-- Settles O42: each effect keeps the invariant, and the edge writes no register. -/
theorem stepKeepsInvariant : Obligations.StepKeepsInvariant := by
  intro s t h ht
  obtain ⟨u, hu, rfl⟩ := step_effect ht
  exact (hu.keeps_inv h).retire

theorem step_of_resetting {s t : State} (h : s.resetting) (ht : step s = .next t) :
    t = (s.loadReset s.pins.legacyMode).retire := by
  obtain ⟨u, hu, rfl⟩ := exec_of_step ht
  rw [fetch_of_resetting h, exec_reset] at hu
  cases hu
  rfl

/-- Settles O41. -/
theorem invariantHoldsAfterReset : Obligations.InvariantHoldsAfterReset := by
  refine ⟨fun s t h ht => ?_, State.inv_of_reset_values rfl rfl rfl rfl,
    fun _ => State.inv_of_reset_values rfl rfl rfl rfl⟩
  rw [step_of_resetting h ht]
  exact (s.loadReset_inv _).retire

/-- Settles O49: the ports read the outcome code and the time, both at their reset values. -/
theorem strobesAfterResetAreLow : Obligations.StrobesAfterResetAreLow := by
  intro s t h ht
  have hevent : t.outEvent = outcomeNone := by rw [step_of_resetting h ht, State.retire_outEvent]; rfl
  have htime : t.lastTs = 0 := by rw [step_of_resetting h ht, State.retire_lastTs]; rfl
  have hverified : t.frameVerified = false := by rw [State.frameVerified, hevent]; rfl
  have hrejected : t.frameRejected = false := by rw [State.frameRejected, hevent]; rfl
  exact ⟨hverified, hrejected, hevent, htime⟩

/-! ### The read-cycle states as ranges of positions (R79) -/

theorem State.readState_waitSync_iff {s : State} : s.readState = some .waitSync ↔ 11 ≤ s.pos.toNat := by
  unfold State.readState
  split_ifs with h <;> simp [h]

theorem State.readState_readingPid_iff {s : State} : s.readState = some .readingPid ↔ s.pos.toNat = 1 := by
  unfold State.readState
  split_ifs <;> simp <;> omega

theorem State.readState_readingData_iff {s : State} :
    s.readState = some .readingData ↔ 2 ≤ s.pos.toNat ∧ s.pos.toNat < 2 + s.wDlc := by
  have hlen : s.wDlc ≤ 8 := dlc_le _
  unfold State.readState
  split_ifs <;> simp <;> omega

theorem State.readState_readingChecksum_iff {s : State} :
    s.readState = some .readingChecksum ↔ s.pos.toNat = 2 + s.wDlc := by
  have hlen : s.wDlc ≤ 8 := dlc_le _
  have htwo : 2 ≤ s.wDlc := two_le_dlc _
  unfold State.readState
  split_ifs <;> simp <;> omega

/-- R33, R79: every position of the invariant has its state. -/
theorem State.exists_readState {s : State} (h : s.posInv) : ∃ r, s.readState = some r := by
  rcases h with h | h | ⟨h2, hle⟩
  · exact ⟨_, State.readState_readingPid_iff.mpr h⟩
  · exact ⟨_, State.readState_waitSync_iff.mpr h.ge⟩
  · rcases hle.lt_or_eq with hlt | heq
    · exact ⟨_, State.readState_readingData_iff.mpr ⟨h2, hlt⟩⟩
    · exact ⟨_, State.readState_readingChecksum_iff.mpr heq⟩

theorem State.retire_readState (s : State) : s.retire.readState = s.readState :=
  readState_congr s.retire_pos (retire_wDlc s)

/-! ### A byte that is no sync -/

/-- The two effects of a consumed byte that is no sync, by its position. -/
theorem step_of_not_sync {s t : State} {f : Bool} {b : Byte} (h : s.receives f b)
    (hn : ¬ (f = true ∧ s.prev = 0x00)) (ht : step s = .next t) :
    (¬ (2 ≤ s.pos.toNat ∧ (s.pos.toNat = 2 + s.wDlc ∨ s.pos.toNat = 10)) ∧
      t = (s.takeByte s.pos.toNat b).retire) ∨
    (2 ≤ s.pos.toNat ∧ (s.pos.toNat = 2 + s.wDlc ∨ s.pos.toNat = 10) ∧ t = (s.takeChecksum b).retire) := by
  obtain ⟨u, hu, rfl⟩ := step_effect ht
  have hstart : s.startPos f = s.pos.toNat := State.startPos_of_not_sync (not_sync_iff.mp hn)
  cases hu with
  | lookup p hp d c => exact absurd (h.1.symm.trans hp) nofun
  | reset hr => exact absurd h (not_receives_of_resetting hr)
  | quiet hq => exact absurd h (not_receives_of_quiet hq)
  | plain g c hb h10 hne =>
    obtain ⟨rfl, rfl⟩ := receives_unique hb h
    rw [hstart] at h10 hne ⊢
    exact .inl ⟨by omega, rfl⟩
  | checksum g c hb h2 hc =>
    obtain ⟨rfl, rfl⟩ := receives_unique hb h
    rw [hstart] at h2 hc
    exact .inr ⟨h2, hc, rfl⟩

/-- The next state of the read cycle after a byte that is no sync (R79). -/
theorem readState_of_not_sync {s t : State} {f : Bool} {b : Byte} (h : s.receives f b)
    (hn : ¬ (f = true ∧ s.prev = 0x00)) (ht : step s = .next t) :
    (s.readState = some .waitSync → t.readState = some .waitSync) ∧
    (s.readState = some .readingPid → t.readState = some .readingData) ∧
    (s.readState = some .readingData →
      t.readState = some (if s.pos.toNat + 1 = 2 + s.wDlc then .readingChecksum else .readingData)) ∧
    (s.readState = some .readingChecksum →
      t.readState = some .waitSync ∧ (t.outEvent = 0b01 ∨ t.outEvent = 0b10)) := by
  have hlen : s.wDlc ≤ 8 := dlc_le _
  rw [State.readState_waitSync_iff (s := s), State.readState_readingPid_iff (s := s),
    State.readState_readingData_iff (s := s), State.readState_readingChecksum_iff (s := s)]
  rcases step_of_not_sync h hn ht with ⟨hc, rfl⟩ | ⟨h2, hc, rfl⟩
  · have hnew := s.takeByte_pos_toNat b s.pos.isLt
    rw [State.retire_readState, State.readState_waitSync_iff, State.readState_readingData_iff]
    refine ⟨fun hw => ?_, fun h1 => ?_, fun hd => ?_, fun hk => ?_⟩
    · rw [hnew, if_neg (by omega)]
      exact hw
    · have htwo : 2 ≤ (s.takeByte s.pos.toNat b).wDlc := two_le_dlc _
      rw [hnew, if_pos (by omega)]
      omega
    · have hkept : (s.takeByte s.pos.toNat b).wDlc = s.wDlc := s.takeByte_wDlc b (by omega)
      rw [if_pos (by omega)] at hnew
      split_ifs with hlast
      · rw [State.readState_readingChecksum_iff, hnew, hkept, hlast]
      · rw [State.readState_readingData_iff, hnew, hkept]
        omega
    · exact absurd ⟨by omega, .inl hk⟩ hc
  · refine ⟨fun hw => absurd hw (by omega), fun h1 => absurd h1 (by omega), fun hd => absurd hd (by omega),
      fun _ => ⟨?_, ?_⟩⟩
    · rw [State.readState_waitSync_iff, State.retire_pos, State.takeChecksum_pos]
      decide
    · rw [State.retire_outEvent, State.takeChecksum_outEvent]
      cases s.frameOk b
      · exact .inr rfl
      · exact .inl rfl

/-- Settles O36. -/
theorem readCycleTransitions : Obligations.ReadCycleTransitions := by
  intro s t hinv ht
  refine ⟨State.exists_readState hinv.position, fun hq => ?_,
    fun f b h => ⟨?_, fun hn => readState_of_not_sync h hn ht⟩⟩
  · obtain ⟨u, hu, rfl⟩ := exec_of_step ht
    rw [fetch_of_quiet hq, exec_idle] at hu
    cases hu
    exact State.retire_readState _
  · rintro ⟨rfl, hz⟩
    exact State.readState_of_pos_one (step_pos_of_sync h hz ht)

end Sys2Proof.Machine
end

section
/-! Runs of any length from any state: what stays between publishes (44_frame_store.md), and how soon after a publish
the next one can come (70_reset_and_hazards.md section 2). -/

namespace Sys2Proof.Machine

theorem run_succ_of_step {s t u : State} {k : Nat} (ht : step s = .next t)
    (hu : Host.Core.run core (k + 1) s = .next u) : Host.Core.run core k t = .next u :=
  (run_succ k ht).symm.trans hu

theorem step_of_run_one {s t : State} (h : Host.Core.run core 1 s = .next t) : step s = .next t := by
  obtain ⟨v, hv⟩ := step_total s
  cases run_succ_of_step hv h
  exact hv

theorem step_probe {s t : State} (ht : step s = .next t) : t.probe = none := by
  obtain ⟨u, -, rfl⟩ := exec_of_step ht
  exact u.retire_probe

/-! ### Runs without a reset -/

/-- No reset stands at the ports, now or in the cycles the environment has listed. -/
def State.NoResetAhead (s : State) : Prop := iwRst s.pins.iw = false ∧ ∀ p ∈ s.pending, iwRst p.iw = false

theorem State.NoResetAhead.not_resetting {s : State} (h : s.NoResetAhead) : ¬ s.resetting :=
  fun hr => Bool.false_ne_true (h.1.symm.trans hr.2)

/-- The edge takes the next levels from the list, idle ones at its end (log 2). -/
theorem State.NoResetAhead.retire {s : State} (h : s.NoResetAhead) : s.retire.NoResetAhead := by
  obtain ⟨hpins, hpending⟩ := h
  cases hp : s.probe with
  | some p =>
    rw [State.retire_of_probe hp]
    exact ⟨hpins, hpending⟩
  | none =>
    cases hq : s.pending with
    | nil =>
      rw [State.retire_of_last hp hq]
      exact ⟨(by decide : iwRst Pins.idle.iw = false), hpending⟩
    | cons p ps =>
      rw [State.retire_of_next hp hq]
      rw [hq, List.forall_mem_cons] at hpending
      exact hpending

theorem State.NoResetAhead.step {s t : State} (h : s.NoResetAhead) (ht : step s = .next t) : t.NoResetAhead := by
  obtain ⟨u, hu, rfl⟩ := exec_of_step ht
  obtain ⟨hpins, hpending, -⟩ := exec_environment _ _ _ hu
  apply State.NoResetAhead.retire
  rw [State.NoResetAhead, hpins, hpending]
  exact h

/-- R98: a clock cycle that is no reset cycle and reports no verified frame keeps the VerifiedFrame ports. -/
theorem getData_of_step {s t : State} (hp : s.probe = none) (hr : ¬ s.resetting) (ht : step s = .next t)
    (hno : t.frameVerified = false) : t.getData = s.getData := by
  by_contra hne
  have hchanged : t.vraw ≠ s.vraw ∨ t.vValid ≠ s.vValid := by
    by_contra hsame
    rw [not_or, not_not, not_not] at hsame
    exact hne (State.getData_congr hsame.1 hsame.2)
  have hpublish := (verifiedFrameWrittenOnlyByPublish s t ht).2 hr hchanged
  have hevent : t.outEvent = outcomeVerified := (outcomeCodeOfEveryCycle s t hp ht).1.mpr hpublish
  rw [State.frameVerified, hevent] at hno
  exact absurd hno (by decide)

theorem getData_of_run {k : Nat} {s t : State} (hp : s.probe = none) (hr : s.NoResetAhead)
    (ht : Host.Core.run core k s = .next t)
    (hno : ∀ j u, 0 < j → j ≤ k → Host.Core.run core j s = .next u → u.frameVerified = false) :
    t.getData = s.getData := by
  induction k generalizing s with
  | zero => cases ht; rfl
  | succ k ih =>
    obtain ⟨v, hv⟩ := step_total s
    have hfirst : v.frameVerified = false := hno 1 v Nat.one_pos (Nat.le_add_left 1 k) (run_succ 0 hv)
    have hrest : t.getData = v.getData :=
      ih (step_probe hv) (hr.step hv) (run_succ_of_step hv ht) fun j u _ hj hu =>
        hno (j + 1) u j.succ_pos (Nat.succ_le_succ hj) ((run_succ j hv).trans hu)
    exact hrest.trans (getData_of_step hp hr.not_resetting hv hfirst)

/-- Settles O44: no cycle of the run is a reset cycle or reports a verified frame, so each keeps the ports. -/
theorem verifiedFrameStableBetweenPublishes : Obligations.VerifiedFrameStableBetweenPublishes :=
  fun _ _ _ hp hpins hpending ht hno => getData_of_run hp ⟨hpins, hpending⟩ ht hno

/-! ### The cycles after a publish -/

/-- The position waits, or a frame has begun and has taken at most `n` slots. -/
def State.ProgressAtMost (n : Nat) (s : State) : Prop := 11 ≤ s.pos.toNat ∨ s.pos.toNat ≤ n

/-- R71: one cycle takes at most one slot. -/
theorem StepEffect.progress {s t : State} {n : Nat} (e : StepEffect s t) (h : s.ProgressAtMost n) :
    t.ProgressAtMost (n + 1) := by
  unfold State.ProgressAtMost at h ⊢
  cases e with
  | lookup p hp d c => exact h.imp_right Nat.le_succ_of_le
  | reset hr => exact .inl (Nat.le_refl 11)
  | quiet hq => exact h.imp_right Nat.le_succ_of_le
  | plain f b hb h10 hn =>
    have hstart := s.startPos_eq f
    rw [s.takeByte_pos_toNat b (s.startPos_lt f)]
    split <;> omega
  | checksum f b hb h2 hc =>
    rw [State.takeChecksum_pos]
    exact .inl (by decide)

theorem State.ProgressAtMost.step {s t : State} {n : Nat} (h : s.ProgressAtMost n) (ht : step s = .next t) :
    t.ProgressAtMost (n + 1) := by
  obtain ⟨u, hu, rfl⟩ := step_effect ht
  rw [State.ProgressAtMost, State.retire_pos]
  exact hu.progress h

/-- A checksum byte is taken at position 4 or later, so one that comes after at most three slots is none. -/
theorem not_verified_of_progress {s t : State} {n : Nat} (hp : s.probe = none) (h : s.ProgressAtMost n) (hn : n ≤ 3)
    (ht : step s = .next t) : t.frameVerified = false := by
  have htwo : 2 ≤ s.wDlc := two_le_dlc _
  have hlen : s.wDlc ≤ 8 := dlc_le _
  unfold State.ProgressAtMost at h
  obtain ⟨u, hu, rfl⟩ := step_effect ht
  rw [State.frameVerified, State.retire_outEvent]
  cases hu with
  | lookup p hp' d c => exact absurd (hp.symm.trans hp') nofun
  | reset hr => rfl
  | quiet hq => rfl
  | plain f b hb h10 hne => rfl
  | checksum f b hb h2 hc =>
    have hstart := s.startPos_eq f
    omega

theorem not_verified_of_run {k n : Nat} {s t : State} (hp : s.probe = none) (h : s.ProgressAtMost n)
    (hk : n + k ≤ 3) (ht : Host.Core.run core (k + 1) s = .next t) : t.frameVerified = false := by
  induction k generalizing s n with
  | zero => exact not_verified_of_progress hp h hk (step_of_run_one ht)
  | succ k ih =>
    obtain ⟨v, hv⟩ := step_total s
    exact ih (step_probe hv) (h.step hv) (by omega) (run_succ_of_step hv ht)

/-- A cycle that leaves a verified frame was a checksum byte, which leads to the wait position. -/
theorem pos_of_verified {s t : State} (hp : s.probe = none) (ht : step s = .next t) (hv : t.frameVerified = true) :
    t.pos = 11 := by
  obtain ⟨u, hu, rfl⟩ := step_effect ht
  rw [State.frameVerified, State.retire_outEvent] at hv
  rw [State.retire_pos]
  cases hu with
  | lookup p hp' d c => exact absurd (hp.symm.trans hp') nofun
  | checksum f b hb h2 hc => exact s.takeChecksum_pos b
  | reset hr | quiet hq | plain f b hb h10 hne => exact absurd hv Bool.false_ne_true

/-- Settles O45. -/
theorem fiveCyclesBetweenPublishes : Obligations.FiveCyclesBetweenPublishes := by
  intro s t hp ht hv k u hk hk4 hu
  obtain ⟨k, rfl⟩ : ∃ j, k = j + 1 := ⟨k - 1, by omega⟩
  have hwait : t.ProgressAtMost 0 := by
    rw [State.ProgressAtMost, pos_of_verified hp ht hv]
    exact .inl (by decide)
  exact not_verified_of_run (step_probe ht) hwait (by omega) hu

end Sys2Proof.Machine
end

section
/-! Input streams: a clock cycle as a function of the registers and one entry of the stream (R68), the stream as its
iteration, and the cycles without a byte left out (R127). -/

namespace Sys2Proof.Machine

/-! ### Which fields a clock cycle reads -/

/-- The state with another previous byte. -/
def State.withPrev (s : State) (b : Byte) : State := { s with prev := b }

/-- The state with other display fields of the lookups. -/
def State.withShown (s : State) (d : Option Nat) (c : Option CheckResult) : State := { s with dlcOut := d, chkOut := c }

theorem step_of_cycle {s : State} (h : s.probe = none) : step s = .next (cycle s.pins s).retire :=
  step_of_exec (operationsEqualReadCycleStep s h)

theorem cycle_of_rst {p : Pins} (s : State) (h : iwRst p.iw = true) : cycle p s = s.loadReset p.legacyMode := if_pos h

theorem cycle_of_quiet_pins {p : Pins} (s : State) (h : p.quiet) : cycle p s = s.report outcomeNone := by
  obtain ⟨hr, hv⟩ := h
  simp only [cycle, readCycle, hr, hv, Bool.false_eq_true, if_false, if_true]
  rfl

theorem cycle_of_byte {p : Pins} (s : State) (hr : iwRst p.iw = false) : cycle p s = readCycle p.iw p.now s :=
  if_neg (Bool.eq_false_iff.mp hr)

/-- A cycle reads neither what stands at the ports of `s` nor what is pending: its inputs are `p`. -/
theorem cycle_drive (p : Pins) (s : State) (l : List Pins) : cycle p (s.drive l) = (cycle p s).drive l := by
  cases l <;>
  · unfold cycle readCycle
    split
    · rfl
    · split <;> rfl

/-- Every cycle writes the outcome code and none reads it (R26, R109). -/
theorem cycle_report (p : Pins) (s : State) (c : Code) : cycle p (s.report c) = cycle p s := by
  unfold cycle readCycle
  split
  · rfl
  · split <;> rfl

/-- No cycle reads the display fields of the lookups or writes them (log 3). -/
theorem cycle_withShown (p : Pins) (s : State) (d : Option Nat) (c : Option CheckResult) :
    cycle p (s.withShown d c) = (cycle p s).withShown d c := by
  unfold cycle readCycle
  split
  · rfl
  · split <;> rfl

/-- R61: of the previous byte only its being zero is read, and a cycle that resets or consumes a byte writes it. -/
theorem cycle_withPrev {s : State} {b : Byte} (p : Pins) (h : s.prev = 0x00 ↔ b = 0x00) :
    cycle p (s.withPrev b) = if p.acts = true then cycle p s else (cycle p s).withPrev b := by
  have hsync : ∀ f, syncDetected f (s.withPrev b).prev = syncDetected f s.prev := fun f => by
    rw [Bool.eq_iff_iff, syncDetected_eq_true_iff, syncDetected_eq_true_iff, h]
    rfl
  unfold cycle readCycle Pins.acts
  cases hr : iwRst p.iw with
  | true => rfl
  | false =>
    cases hv : iwValid p.iw with
    | false => rfl
    | true => simp only [hsync]; rfl

theorem State.retire_withPrev (s : State) (b : Byte) : (s.withPrev b).retire = s.retire.withPrev b := by
  cases hp : s.probe <;> cases hq : s.pending <;> simp [State.retire, State.withPrev, hp, hq]

theorem State.retire_withShown (s : State) (d : Option Nat) (c : Option CheckResult) :
    (s.withShown d c).retire = s.retire.withShown d c := by
  cases hp : s.probe <;> cases hq : s.pending <;> simp [State.retire, State.withShown, hp, hq]

theorem LookupWord.answer_prev (s : State) (w : LookupWord) : (w.answer s).prev = s.prev := by
  cases w <;> rfl

theorem LookupWord.answer_withPrev (s : State) (b : Byte) (w : LookupWord) :
    w.answer (s.withPrev b) = (w.answer s).withPrev b := by
  cases w <;> rfl

/-- A step that neither resets nor consumes a byte keeps `prev` and reads nothing of it; any other one does not
depend on it but through its being zero. -/
theorem step_withPrev {s t : State} {b : Byte} (hz : s.prev = 0x00 ↔ b = 0x00) (ht : step s = .next t) :
    step (s.withPrev b) = .next t ∨ (t.prev = s.prev ∧ step (s.withPrev b) = .next (t.withPrev b)) := by
  rcases hp : s.probe with _ | w
  · have hother : (s.withPrev b).probe = none := hp
    have hpins : (s.withPrev b).pins = s.pins := rfl
    rw [step_of_cycle hp] at ht
    cases ht
    rw [step_of_cycle hother, hpins, cycle_withPrev _ hz]
    cases ha : s.pins.acts with
    | true => exact .inl (by rw [if_pos rfl])
    | false =>
      have hquiet : s.pins.quiet := Bool.or_eq_false_iff.mp ha
      rw [if_neg Bool.false_ne_true, State.retire_withPrev, State.retire_prev, cycle_of_quiet_pins s hquiet]
      exact .inr ⟨rfl, rfl⟩
  · have hother : (s.withPrev b).probe = some w := hp
    rw [step_of_exec (exec_fetch_of_lookup hp)] at ht
    cases ht
    rw [step_of_exec (exec_fetch_of_lookup hother), LookupWord.answer_withPrev, State.retire_withPrev,
      State.retire_prev, LookupWord.answer_prev]
    exact .inr ⟨rfl, rfl⟩

/-- Settles O34. -/
theorem prevMattersOnlyByBeingZero : Obligations.PrevMattersOnlyByBeingZero :=
  fun _ _ _ hz ht => step_withPrev hz ht

theorem step_withShown {s t : State} (d : Option Nat) (c : Option CheckResult) (hp : s.probe = none)
    (ht : step s = .next t) : step (s.withShown d c) = .next (t.withShown d c) := by
  have hother : (s.withShown d c).probe = none := hp
  have hpins : (s.withShown d c).pins = s.pins := rfl
  rw [step_of_cycle hp] at ht
  cases ht
  rw [step_of_cycle hother, hpins, cycle_withShown, State.retire_withShown]

/-- Settles O37: a clock cycle carries other display fields along, and a lookup writes only them before its request
is removed. -/
theorem lookupFieldsReachNoRegister : Obligations.LookupFieldsReachNoRegister := by
  refine ⟨fun s t d c hp ht => step_withShown d c hp ht, fun s t w hp ht => ?_⟩
  obtain ⟨d, c, hanswer⟩ := w.answer_eq s
  rw [step_of_exec (exec_fetch_of_lookup hp), hanswer, State.retire_of_probe (by exact hp)] at ht
  cases ht
  rfl

/-! ### A stream as the iteration of its cycles -/

/-- The state after the cycles of a stream, the ports aside. -/
def State.feed (s : State) (l : List Pins) : State := l.foldl (fun t p => cycle p t) s

@[simp] theorem State.feed_nil (s : State) : s.feed [] = s := rfl

@[simp] theorem State.feed_cons (s : State) (p : Pins) (l : List Pins) : s.feed (p :: l) = (cycle p s).feed l := rfl

@[simp] theorem State.feed_append (s : State) (l m : List Pins) : s.feed (l ++ m) = (s.feed l).feed m :=
  List.foldl_append

theorem State.retire_drive (s : State) (p : Pins) (l : List Pins) : (s.drive (p :: l)).retire = s.drive l := by
  cases l <;> rfl

/-- One step of the machine takes one entry of the stream. -/
theorem step_drive_cons (s : State) (p : Pins) (l : List Pins) :
    step (s.drive (p :: l)) = .next ((cycle p s).drive l) := by
  have hpins : (s.drive (p :: l)).pins = p := rfl
  rw [step_of_cycle rfl, hpins, cycle_drive, State.retire_drive]

/-- After as many steps as a stream has entries, its iteration is reached and the rest of the stream is at the ports. -/
theorem run_drive_append (s : State) (l m : List Pins) :
    Host.Core.run core l.length (s.drive (l ++ m)) = .next ((s.feed l).drive m) := by
  induction l generalizing s with
  | nil => rfl
  | cons p l ih => exact (run_succ l.length (step_drive_cons s p (l ++ m))).trans (ih _)

theorem run_drive (s : State) (l : List Pins) :
    Host.Core.run core l.length (s.drive l) = .next ((s.feed l).drive []) := by
  simpa only [List.append_nil] using run_drive_append s l []

/-! ### Cycles without a byte (R127) -/

theorem State.report_feed (s : State) (c d : Code) (l : List Pins) :
    ((s.report d).feed l).report c = (s.feed l).report c := by
  cases l with
  | nil => rfl
  | cons p l => rw [State.feed_cons, cycle_report, State.feed_cons]

/-- Up to the outcome code, a stream does what it does with its cycles without a byte left out. -/
theorem State.report_feed_filter (s : State) (c : Code) (l : List Pins) :
    (s.feed l).report c = (s.feed (l.filter Pins.acts)).report c := by
  induction l generalizing s with
  | nil => rfl
  | cons p l ih =>
    cases ha : p.acts with
    | true => rw [List.filter_cons_of_pos ha, State.feed_cons, State.feed_cons, ih]
    | false =>
      have hquiet : p.quiet := Bool.or_eq_false_iff.mp ha
      rw [List.filter_cons_of_neg (Bool.eq_false_iff.mp ha), State.feed_cons, cycle_of_quiet_pins s hquiet,
        State.report_feed, ih]

/-- A gap without bytes writes the outcome code alone. -/
theorem State.report_feed_quiet (s : State) (c : Code) {gap : List Pins} (h : ∀ p ∈ gap, p.quiet) :
    (s.feed gap).report c = s.report c := by
  have hempty : gap.filter Pins.acts = [] :=
    List.filter_eq_nil_iff.mpr fun p hp => Bool.eq_false_iff.mp (Bool.or_eq_false_iff.mpr (h p hp))
  rw [State.report_feed_filter, hempty, State.feed_nil]

/-- Settles O46. -/
theorem idleGapsDoNotMatter : Obligations.IdleGapsDoNotMatter := by
  intro s l
  have h := s.report_feed_filter outcomeNone l
  have field {α : Type} (g : State → α) (hr : ∀ t : State, g (t.report outcomeNone) = g t)
      (hd : ∀ t : State, g (t.drive []) = g t) :
      g ((s.feed l).drive []) = g ((s.feed (l.filter Pins.acts)).drive []) := by
    rw [hd, hd, ← hr, h, hr]
  refine ⟨_, _, run_drive s l, run_drive s (l.filter Pins.acts), ?_⟩
  exact ⟨field State.pos (fun _ => rfl) fun _ => rfl, field State.prev (fun _ => rfl) fun _ => rfl,
    field State.raw (fun _ => rfl) fun _ => rfl, field State.cfgLegacy (fun _ => rfl) fun _ => rfl,
    field State.vraw (fun _ => rfl) fun _ => rfl, field State.vValid (fun _ => rfl) fun _ => rfl,
    field State.lastTs (fun _ => rfl) fun _ => rfl⟩

/-! ### The time of the last byte (R103) -/

theorem cycle_prev_of_presents {p : Pins} (s : State) {f : Bool} {b : Byte} (h : p.presents f b) :
    (cycle p s).prev = b := by
  obtain ⟨hr, hv, -, rfl⟩ := h
  rw [cycle_of_byte s hr, readCycle, if_neg (by simp [hv])]

theorem cycle_lastTs_of_acts {p : Pins} (s : State) (h : p.acts = true) :
    (cycle p s).lastTs = if iwRst p.iw = true then 0 else p.now := by
  cases hr : iwRst p.iw with
  | true => rw [cycle_of_rst s hr]; rfl
  | false =>
    have hv : iwValid p.iw = true := by simpa only [Pins.acts, hr, Bool.false_or] using h
    rw [cycle_of_byte s hr, readCycle, if_neg (by simp [hv])]
    rfl

/-- What the last cycle of a stream leaves in `last_ts`, if each of its cycles resets or consumes a byte. -/
theorem State.lastTs_feed_of_acts (s : State) (l : List Pins) (h : ∀ p ∈ l, p.acts = true) :
    (s.feed l).lastTs =
      match l.getLast? with
      | some p => if iwRst p.iw = true then 0 else p.now
      | none => s.lastTs := by
  rcases l.eq_nil_or_concat with rfl | ⟨l, p, rfl⟩
  · rfl
  · rw [List.concat_eq_append, List.getLast?_concat, State.feed_append]
    exact cycle_lastTs_of_acts _ (h p (by simp))

/-- Settles O43: only the cycles that act count, and the last of them decides. -/
theorem portShowsTimeOfLastByteOfStream : Obligations.PortShowsTimeOfLastByteOfStream := by
  refine ⟨fun s l => ⟨_, run_drive s l, ?_⟩, fun n l h => ?_⟩
  · have hfilter := congrArg State.lastTs (s.report_feed_filter outcomeNone l)
    exact hfilter.trans (s.lastTs_feed_of_acts _ fun p hp => List.of_mem_filter hp)
  · exact (BitVec.toNat_ofNat _ _).trans (Nat.mod_eq_of_lt h)

/-! ### From one byte to the next across a gap -/

theorem receives_drive {p : Pins} {f : Bool} {b : Byte} (s : State) (l : List Pins) (h : p.presents f b) :
    (s.drive (p :: l)).receives f b := ⟨rfl, h⟩

/-- Settles O40: the reset values of position and previous byte stand when the first byte comes. -/
theorem firstByteAfterResetIsIgnored : Obligations.FirstByteAfterResetIsIgnored := by
  intro s x y gap f b hx hgap hy
  have hquiet := (s.loadReset x.legacyMode).report_feed_quiet outcomeNone hgap
  have hprev : ((s.feed (x :: gap)).drive [y]).prev = 0xFF := by
    rw [State.feed_cons, cycle_of_rst s hx]
    exact congrArg State.prev hquiet
  have hpos : ((s.feed (x :: gap)).drive [y]).pos = 11 := by
    rw [State.feed_cons, cycle_of_rst s hx]
    exact congrArg State.pos hquiet
  have hrec : ((s.feed (x :: gap)).drive [y]).receives f b := receives_drive _ [] hy
  refine ⟨_, run_drive_append s (x :: gap) [y], hrec, ?_⟩
  have hsync : ¬ (f = true ∧ ((s.feed (x :: gap)).drive [y]).prev = 0x00) := by
    rw [hprev]
    exact fun h => absurd h.2 (by decide)
  have hwait : 11 ≤ ((s.feed (x :: gap)).drive [y]).pos.toNat := by rw [hpos]; decide
  rw [fetch_of_not_sync hrec hsync, positionOp_of_wait f b hwait]

/-! ### One entry of a stream that presents a byte -/

section Driven

variable (s : State) (l : List Pins)

theorem State.drive_wDlc : (s.drive l).wDlc = s.wDlc := by cases l <;> rfl

theorem State.drive_startPos (f : Bool) : (s.drive l).startPos f = s.startPos f := by cases l <;> rfl

theorem State.drive_frameOk (b : Byte) : (s.drive l).frameOk b = s.frameOk b := by cases l <;> rfl

theorem State.drive_frameVerified : (s.drive l).frameVerified = s.frameVerified := by cases l <;> rfl

end Driven

/-- R68 for the first entry of a stream: a plain byte. -/
theorem drive_cycle_of_plain {s : State} {p : Pins} {f : Bool} {b : Byte} (h : p.presents f b)
    (hlt : s.startPos f < 10) (hn : s.startPos f < 2 ∨ s.startPos f ≠ 2 + s.wDlc) :
    (cycle p s).drive [p] = (s.drive [p]).takeByte (s.startPos f) b := by
  have hrec : (s.drive [p]).receives f b := receives_drive s [] h
  rw [← s.drive_startPos [p]] at hlt hn ⊢
  rw [← s.drive_wDlc [p]] at hn
  rw [← cycle_drive p s [p]]
  exact cycle_of_plain_byte (s := s.drive [p]) hrec hlt.ne hn

/-- R68 for the first entry of a stream: a checksum byte. -/
theorem drive_cycle_of_checksum {s : State} {p : Pins} {f : Bool} {b : Byte} (h : p.presents f b)
    (h2 : 2 ≤ s.startPos f) (hn : s.startPos f = 2 + s.wDlc ∨ s.startPos f = 10) :
    (cycle p s).drive [p] = (s.drive [p]).takeChecksum b := by
  have hrec : (s.drive [p]).receives f b := receives_drive s [] h
  rw [← s.drive_startPos [p]] at h2 hn
  rw [← s.drive_wDlc [p]] at hn
  rw [← cycle_drive p s [p]]
  exact cycle_of_checksum_byte (s := s.drive [p]) hrec h2 hn

/-- Two states with the same environment are equal if they are when driven by one stream. -/
theorem State.eq_of_drive_eq {s t : State} {l : List Pins} (h : s.drive l = t.drive l) (hpins : s.pins = t.pins)
    (hpending : s.pending = t.pending) (hprobe : s.probe = t.probe) : s = t := by
  cases s
  cases t
  cases l <;> simp_all [State.drive]

/-- R68 for an entry of a stream with a byte at slot `k`, below the checksum slot, that is no checksum byte. -/
theorem cycle_of_plain_entry {s : State} {p : Pins} {f : Bool} {b : Byte} {k : Nat} (h : p.presents f b)
    (hs : s.startPos f = k) (hlt : k < 10) (hn : k < 2 ∨ k ≠ 2 + s.wDlc) :
    cycle p s =
      { s with
        raw := s.raw.set k b, pos := BitVec.ofNat 4 (k + 1), prev := b, lastTs := p.now, outEvent := outcomeNone } := by
  subst hs
  obtain ⟨hpins, hpending, hprobe⟩ := cycle_environment p s
  refine State.eq_of_drive_eq (l := [p]) ?_ hpins hpending hprobe
  rw [drive_cycle_of_plain h hlt hn, State.takeByte, State.storeAndAdvance_of_lt _ _ _ (by omega)]
  rfl

/-- R77 for an entry of a stream, on a pass. -/
theorem cycle_of_passing_entry {s : State} {p : Pins} {f : Bool} {b : Byte} (h : p.presents f b)
    (h2 : 2 ≤ s.startPos f) (hn : s.startPos f = 2 + s.wDlc ∨ s.startPos f = 10) (hk : s.frameOk b = true) :
    cycle p s =
      { s with
        raw := s.raw.set 10 b, vraw := s.raw.set 10 b, vValid := true, pos := 11, prev := b, lastTs := p.now,
        outEvent := outcomeVerified } := by
  obtain ⟨hpins, hpending, hprobe⟩ := cycle_environment p s
  refine State.eq_of_drive_eq (l := [p]) ?_ hpins hpending hprobe
  rw [← s.drive_frameOk [p]] at hk
  rw [drive_cycle_of_checksum h h2 hn, State.takeChecksum_of_pass _ _ hk,
    State.storeAndAdvance_of_lt _ _ _ (by decide : Config.chkSlot < 11)]
  rfl

/-- R77, R97 for an entry of a stream, on a failure. -/
theorem cycle_of_failing_entry {s : State} {p : Pins} {f : Bool} {b : Byte} (h : p.presents f b)
    (h2 : 2 ≤ s.startPos f) (hn : s.startPos f = 2 + s.wDlc ∨ s.startPos f = 10) (hk : s.frameOk b = false) :
    cycle p s =
      { s with raw := s.raw.set 10 b, pos := 11, prev := b, lastTs := p.now, outEvent := outcomeRejected } := by
  obtain ⟨hpins, hpending, hprobe⟩ := cycle_environment p s
  refine State.eq_of_drive_eq (l := [p]) ?_ hpins hpending hprobe
  rw [← s.drive_frameOk [p]] at hk
  rw [drive_cycle_of_checksum h h2 hn, State.takeChecksum_of_fail _ _ hk,
    State.storeAndAdvance_of_lt _ _ _ (by decide : Config.chkSlot < 11)]
  rfl

/-- R62, R63 for an entry of a stream. -/
theorem cycle_of_sync_entry {s : State} {p : Pins} {b : Byte} (h : p.presents true b) (hz : s.prev = 0x00) :
    cycle p s =
      { s with raw := s.raw.set 0 b, pos := 1, prev := b, lastTs := p.now, outEvent := outcomeNone } := by
  rw [cycle_of_plain_entry h (State.startPos_of_sync hz) (by omega) (.inl (by omega))]
  rfl

/-- Settles O26: the gap keeps the zero byte in `prev`, so the byte with the framing error is a sync. -/
theorem recoveryAcrossIdleGap : Obligations.RecoveryAcrossIdleGap := by
  intro s z y gap f b hz hgap hy
  have hlen : gap.length + 2 = (z :: (gap ++ [y])).length := by simp
  have hprev : ((cycle z s).feed gap).prev = 0x00 :=
    (congrArg State.prev ((cycle z s).report_feed_quiet outcomeNone hgap)).trans (cycle_prev_of_presents s hz)
  have hend : s.feed (z :: (gap ++ [y])) = cycle y ((cycle z s).feed gap) := by
    rw [State.feed_cons, State.feed_append, State.feed_cons, State.feed_nil]
  refine ⟨_, by rw [hlen]; exact run_drive s _, ?_, ?_⟩
  · rw [hend, cycle_of_sync_entry hy hprev]
    exact State.readState_of_pos_one rfl
  · rw [hend, cycle_of_sync_entry hy hprev]
    exact Vector.getElem_set_self _

end Sys2Proof.Machine
end

section
/-! Whole frames (95_test_vectors.md section 1.1, 43_checksum.md "On reject"): what stands in the slots while a frame
comes in, for every length, and the verdict of its last cycle. -/

namespace Sys2Proof.Machine

/-! ### The cycles of stream lines (R60) -/

theorem setWidth_eq_mkIw (b : Byte) : b.setWidth 11 = mkIw false false false b := by
  rw [BitVec.setWidth_eq_append (by decide : 8 ≤ 11)]
  rfl

theorem mkIw_or_byte (r v f : Bool) (b : Byte) : mkIw r v f 0#8 ||| b.setWidth 11 = mkIw r v f b := by
  rw [setWidth_eq_mkIw]
  refine BitVec.or_append.trans ?_
  simp only [BitVec.or_append, BitVec.ofBool_or_ofBool, Bool.or_false, BitVec.zero_or]
  rfl

theorem Line.word_byte (b : Byte) : (Line.byte b).word = mkIw false true false b :=
  mkIw_or_byte false true false b

theorem Line.word_byteFerr (b : Byte) : (Line.byteFerr b).word = mkIw false true true b :=
  mkIw_or_byte false true true b

theorem Pins.presents_of_iw {p : Pins} {f : Bool} {b : Byte} (h : p.iw = mkIw false true f b) : p.presents f b := by
  rw [Pins.presents, h]
  exact ⟨iwRst_mkIw .., iwValid_mkIw .., iwFerr_mkIw .., iwData_mkIw ..⟩

/-- The port levels in cycle `n` of the line with no time of its own, which is then `n`. -/
def Line.pins (n : Nat) (l : Line) : Pins := TimedLine.pins n ⟨none, l⟩

theorem Line.byte_presents (n : Nat) (b : Byte) : ((Line.byte b).pins n).presents false b :=
  Pins.presents_of_iw (Line.word_byte b)

theorem Line.byteFerr_presents (n : Nat) (b : Byte) : ((Line.byteFerr b).pins n).presents true b :=
  Pins.presents_of_iw (Line.word_byteFerr b)

theorem streamFrom_plain_cons (n : Nat) (l : Line) (ls : List Line) :
    streamFrom n (plain (l :: ls)) = l.pins n :: streamFrom (n + 1) (plain ls) := rfl

theorem streamFrom_plain_concat (n : Nat) (ls : List Line) (l : Line) :
    streamFrom n (plain (ls ++ [l])) = streamFrom n (plain ls) ++ [l.pins (n + ls.length)] := by
  induction ls generalizing n with
  | nil => rfl
  | cons m ls ih =>
    rw [List.cons_append, streamFrom_plain_cons, ih, streamFrom_plain_cons, List.length_cons,
      show n + 1 + ls.length = n + (ls.length + 1) by omega]
    rfl

theorem streamFrom_plain_length (n : Nat) (ls : List Line) : (streamFrom n (plain ls)).length = ls.length := by
  induction ls generalizing n with
  | nil => rfl
  | cons l ls ih => rw [streamFrom_plain_cons, List.length_cons, ih, List.length_cons]

theorem streamFrom_plain_take (n k : Nat) (ls : List Line) :
    (streamFrom n (plain ls)).take k = streamFrom n (plain (ls.take k)) := by
  induction ls generalizing n k with
  | nil => simp [plain, streamFrom]
  | cons l ls ih =>
    cases k with
    | zero => rfl
    | succ k => rw [streamFrom_plain_cons, List.take_succ_cons, ih, List.take_succ_cons, streamFrom_plain_cons]

/-- The state after the first `k` cycles of a stream. -/
theorem run_drive_take (s : State) {l : List Pins} {k : Nat} (h : k ≤ l.length) :
    Host.Core.run core k (s.drive l) = .next ((s.feed (l.take k)).drive (l.drop k)) := by
  have hrun := run_drive_append s (l.take k) (l.drop k)
  rwa [List.take_append_drop, List.length_take_of_le h] at hrun

/-! ### The slots while a frame comes in -/

/-- The frame of `y`, `pid` and the payload bytes `taken` stands in `t`, which was reached from `s` with no verdict: the
slots past it are those of `s`, as are configuration and VerifiedFrame. -/
structure State.Assembling (s t : State) (y pid : Byte) (taken : List Byte) : Prop where
  pos : t.pos.toNat = 2 + taken.length
  sync : t.raw[0] = y
  pidSlot : t.raw[1] = pid
  data : ∀ k (hk : k < taken.length) (hslot : 2 + k < 11), t.raw[2 + k] = taken[k]
  stale : ∀ j (hj : j < 11), 2 + taken.length ≤ j → t.raw[j] = s.raw[j]
  legacy : t.cfgLegacy = s.cfgLegacy
  verified : t.vraw = s.vraw ∧ t.vValid = s.vValid
  event : t.outEvent = outcomeNone

section Assembling

variable {s t : State} {y pid : Byte} {taken : List Byte}

theorem State.Assembling.wDlc (h : s.Assembling t y pid taken) : t.wDlc = dlc (idOf pid) := by
  simp only [State.wDlc, State.wId, State.wPid, h.pidSlot]

theorem State.Assembling.startPos (h : s.Assembling t y pid taken) : t.startPos false = 2 + taken.length :=
  (State.startPos_of_not_sync (Bool.false_and _)).trans h.pos

/-- R63, R75: a sync and a PID byte. -/
theorem assembling_header {p q : Pins} (hz : s.prev = 0x00) (hp : p.presents true y) (hq : q.presents false pid) :
    s.Assembling (cycle q (cycle p s)) y pid [] := by
  have hsync := cycle_of_sync_entry hp hz
  generalize cycle p s = u at hsync ⊢
  have hone : u.startPos false = 1 := by rw [State.startPos_of_not_sync (Bool.false_and _), hsync]; rfl
  rw [cycle_of_plain_entry hq hone (by omega) (.inl (by omega))]
  subst hsync
  constructor
  case pos => rfl
  case sync => rw [Vector.getElem_set_ne _ _ (by omega), Vector.getElem_set_self]
  case pidSlot => exact Vector.getElem_set_self _
  case data => intro k hk; exact absurd hk (Nat.not_lt_zero k)
  case stale =>
    intro j hj h2
    rw [List.length_nil] at h2
    rw [Vector.getElem_set_ne _ _ (by omega), Vector.getElem_set_ne _ _ (by omega)]
  case legacy => rfl
  case verified => exact ⟨rfl, rfl⟩
  case event => rfl

/-- R76: a payload byte below the length. -/
theorem State.Assembling.takes {p : Pins} {b : Byte} (h : s.Assembling t y pid taken)
    (hlen : taken.length < dlc (idOf pid)) (hp : p.presents false b) :
    s.Assembling (cycle p t) y pid (taken ++ [b]) := by
  have hle := dlc_le (idOf pid)
  rw [cycle_of_plain_entry hp h.startPos (by omega) (.inr (by rw [h.wDlc]; omega))]
  constructor
  case pos =>
    rw [BitVec.toNat_ofNat, Nat.mod_eq_of_lt (by omega), List.length_append, List.length_singleton, add_assoc]
  case sync => rw [Vector.getElem_set_ne _ _ (by omega), h.sync]
  case pidSlot => rw [Vector.getElem_set_ne _ _ (by omega), h.pidSlot]
  case data =>
    intro k hk hslot
    rw [List.length_append, List.length_singleton] at hk
    rcases Nat.lt_succ_iff_lt_or_eq.mp hk with hk | rfl
    · rw [Vector.getElem_set_ne _ _ (by omega), h.data k hk hslot, List.getElem_append_left hk]
    · rw [Vector.getElem_set_self, List.getElem_concat_length rfl]
  case stale =>
    intro j hj hpast
    rw [List.length_append, List.length_singleton] at hpast
    rw [Vector.getElem_set_ne _ _ (by omega), h.stale j hj (by omega)]
  case legacy => exact h.legacy
  case verified => exact h.verified
  case event => rfl

/-- The payload bytes of a stream, one cycle each. -/
theorem State.Assembling.takes_all (h : s.Assembling t y pid taken) (n : Nat) (rest : List Byte)
    (hlen : taken.length + rest.length ≤ dlc (idOf pid)) :
    s.Assembling (t.feed (streamFrom n (plain (dataLines rest)))) y pid (taken ++ rest) := by
  induction rest generalizing t taken n with
  | nil => rwa [List.append_nil]
  | cons b rest ih =>
    rw [List.length_cons] at hlen
    have hnext := h.takes (b := b) (by omega) (Line.byte_presents n b)
    have hrest := ih hnext (n + 1) (by rw [List.length_append, List.length_singleton]; omega)
    rwa [List.append_assoc, List.singleton_append] at hrest

/-- The payload slots hold the payload (R18). -/
theorem State.Assembling.payload_eq (h : s.Assembling t y pid taken) (hlen : taken.length ≤ 8) :
    payload t.raw taken.length = taken := by
  apply List.ext_getElem (payload_length _ _ hlen)
  intro k hk hk'
  rw [← h.data k hk' (by omega)]
  simp [payload]

/-- R92, R96: the verdict on a complete frame. -/
theorem State.Assembling.frameOk_iff (h : s.Assembling t y pid taken) (hlen : taken.length = dlc (idOf pid))
    (c : Byte) : t.frameOk c = true ↔ c = transmitterChecksum (schemeOf s.cfgLegacy (idOf pid)) pid taken := by
  have hpayload : payload t.raw t.wDlc = taken := by
    rw [h.wDlc, ← hlen]
    exact h.payload_eq (hlen.trans_le (dlc_le _))
  have hid : t.wId = idOf pid := congrArg idOf h.pidSlot
  rw [State.frameOk, hpayload, hid, h.legacy, checksumOk_iff_eq_transmitterChecksum, State.wPid, h.pidSlot]

/-- The checksum byte of a complete frame comes at the position R77 takes one at. -/
theorem State.Assembling.at_checksum (h : s.Assembling t y pid taken) (hlen : taken.length = dlc (idOf pid)) :
    2 ≤ t.startPos false ∧ (t.startPos false = 2 + t.wDlc ∨ t.startPos false = 10) := by
  rw [h.startPos, h.wDlc, hlen]
  exact ⟨Nat.le_add_right 2 _, .inl rfl⟩

/-- R98: what the VerifiedFrame ports show once the frame is published with checksum byte `c`. -/
theorem State.Assembling.published (h : s.Assembling t y pid taken) (hlen : taken.length = dlc (idOf pid)) (c : Byte)
    {v : State} (hv : v.vraw = t.raw.set 10 c) :
    v.getData.vfSync = y ∧ v.getData.vfPid = pid ∧ v.getData.vfId = idOf pid ∧
      v.getData.vfDlc.toNat = taken.length ∧ payload v.vraw taken.length = taken ∧ v.getData.vfChecksum = c ∧
      ∀ j : Fin 11, 2 + taken.length ≤ j.val → j.val < 10 → slotRead v.vraw j = slotRead s.raw j := by
  have hle : taken.length ≤ 8 := hlen.trans_le (dlc_le _)
  have hsync : v.vSync = y := by
    rw [State.vSync, hv, Vector.getElem_set_ne _ _ (by omega), h.sync]
  have hpid : v.vPid = pid := by
    rw [State.vPid, hv, Vector.getElem_set_ne _ _ (by omega), h.pidSlot]
  have hid : v.vId = idOf pid := congrArg idOf hpid
  refine ⟨hsync, hpid, hid, ?_, ?_, ?_, fun j hpast hj => ?_⟩
  · rw [State.getData_vfDlc_toNat, State.vDlc, hid, hlen]
  · have hslots : payload v.vraw taken.length = payload t.raw taken.length :=
      payload_congr _ hle fun i hi _ hi10 => by rw [hv, Vector.getElem_set_ne _ _ (by omega)]
    rw [hslots, h.payload_eq hle]
  · change v.vraw[10] = c
    rw [hv, Vector.getElem_set_self]
  · rw [hv, slotRead_set_checksum, if_neg (by omega)]
    exact h.stale j.val j.isLt hpast

end Assembling

/-! ### The stream of a frame -/

/-- The lines of a frame before its checksum byte, a sync first. -/
def openFrame (y pid : Byte) (data : List Byte) : List Line := [.byteFerr y, .byte pid] ++ dataLines data

section Frame

variable {s : State} {y pid : Byte} {data : List Byte} (n : Nat)

theorem openFrame_length : (openFrame y pid data).length = data.length + 2 := by
  simp [openFrame, dataLines]

theorem assembling_openFrame (hz : s.prev = 0x00) (hlen : data.length ≤ dlc (idOf pid)) :
    s.Assembling (s.feed (streamFrom n (plain (openFrame y pid data)))) y pid data :=
  State.Assembling.takes_all
    (assembling_header hz (Line.byteFerr_presents n y) (Line.byte_presents (n + 1) pid)) (n + 2) data
    (by rwa [List.length_nil, Nat.zero_add])

theorem openFrame_take (k : Nat) : (openFrame y pid data).take (k + 2) = openFrame y pid (data.take k) := by
  simp [openFrame, dataLines]

/-- No cycle before the checksum byte gives a verdict. -/
theorem openFrame_event (hz : s.prev = 0x00) (hlen : data.length ≤ dlc (idOf pid)) {k : Nat} (hk : 0 < k) :
    (s.feed ((streamFrom n (plain (openFrame y pid data))).take k)).outEvent = outcomeNone := by
  rw [streamFrom_plain_take]
  rcases k with _ | _ | k
  · exact absurd hk (Nat.lt_irrefl 0)
  · have hsync := Line.byteFerr_presents n y
    exact congrArg State.outEvent (cycle_of_sync_entry hsync hz)
  · rw [openFrame_take]
    have htake : (data.take k).length ≤ dlc (idOf pid) := (List.length_take_le' _ _).trans hlen
    exact (assembling_openFrame n hz htake).event

/-- The same of the machine's run, with any last line after the payload. -/
theorem frame_not_verified_before_end (hz : s.prev = 0x00) (hlen : data.length ≤ dlc (idOf pid)) (l : Line) {k : Nat}
    {u : State} (hk : 0 < k) (hk' : k < data.length + 3)
    (hu : Host.Core.run core k (s.drive (streamFrom n (plain (openFrame y pid data ++ [l])))) = .next u) :
    u.frameVerified = false := by
  have hopen : k ≤ (streamFrom n (plain (openFrame y pid data))).length := by
    rw [streamFrom_plain_length, openFrame_length]
    omega
  have hle : k ≤ (streamFrom n (plain (openFrame y pid data ++ [l]))).length := by
    rw [streamFrom_plain_concat, List.length_append]
    omega
  rw [run_drive_take s hle, streamFrom_plain_concat, List.take_append_of_le_length hopen] at hu
  cases hu
  rw [State.drive_frameVerified, State.frameVerified, openFrame_event n hz hlen hk]
  rfl

/-- The state that the whole frame leads to: the last cycle applied to the frame before its checksum byte. -/
theorem run_frame (l : Line) :
    Host.Core.run core (data.length + 3) (s.drive (streamFrom n (plain (openFrame y pid data ++ [l])))) =
      .next ((cycle (l.pins (n + data.length + 2))
        (s.feed (streamFrom n (plain (openFrame y pid data))))).drive []) := by
  have hlen : data.length + 3 = (streamFrom n (plain (openFrame y pid data ++ [l]))).length := by
    rw [streamFrom_plain_length, List.length_append, openFrame_length, List.length_singleton]
  rw [hlen, run_drive, streamFrom_plain_concat, State.feed_append, openFrame_length, ← Nat.add_assoc]
  rfl

/-- R77, R98: with the transmitter's checksum byte the last cycle publishes. -/
theorem run_passing_frame (hz : s.prev = 0x00) (hlen : data.length = dlc (idOf pid)) {c : Byte}
    (hc : c = transmitterChecksum (schemeOf s.cfgLegacy (idOf pid)) pid data) :
    ∃ t, Host.Core.run core (data.length + 3)
        (s.drive (streamFrom n (plain (openFrame y pid data ++ [.byte c])))) = .next t ∧
      t.outEvent = outcomeVerified ∧ t.vValid = true ∧
      t.vraw = (s.feed (streamFrom n (plain (openFrame y pid data)))).raw.set 10 c ∧
      t.lastTs = BitVec.ofNat Config.tsWidth (n + data.length + 2) := by
  have ha := assembling_openFrame (y := y) n hz hlen.le
  obtain ⟨h2, hchk⟩ := ha.at_checksum hlen
  have hlast := cycle_of_passing_entry (Line.byte_presents (n + data.length + 2) c) h2 hchk
    ((ha.frameOk_iff hlen c).mpr hc)
  rw [run_frame, hlast]
  exact ⟨_, rfl, rfl, rfl, rfl, rfl⟩

/-- R77, R97: with any other checksum byte the last cycle rejects. -/
theorem run_failing_frame (hz : s.prev = 0x00) (hlen : data.length = dlc (idOf pid)) {c : Byte}
    (hc : c ≠ transmitterChecksum (schemeOf s.cfgLegacy (idOf pid)) pid data) :
    ∃ t, Host.Core.run core (data.length + 3)
        (s.drive (streamFrom n (plain (openFrame y pid data ++ [.byte c])))) = .next t ∧
      t.outEvent = outcomeRejected ∧ t.pos = 11 ∧ t.getData = s.getData := by
  have ha := assembling_openFrame (y := y) n hz hlen.le
  obtain ⟨h2, hchk⟩ := ha.at_checksum hlen
  have hlast := cycle_of_failing_entry (Line.byte_presents (n + data.length + 2) c) h2 hchk
    (Bool.eq_false_of_not_eq_true ((ha.frameOk_iff hlen c).not.mpr hc))
  rw [run_frame, hlast]
  exact ⟨_, rfl, rfl, rfl, State.getData_congr ha.verified.1 ha.verified.2⟩

end Frame

/-! ### The statements -/

/-- Settles O47: up to the checksum byte the frame comes in without a verdict; the transmitter's byte passes, and the
frame published is the one that came in. -/
theorem validFrameIsVerifiedExactlyOnce : Obligations.ValidFrameIsVerifiedExactlyOnce := by
  intro s n y pid data hz hlen c start
  obtain ⟨t, hrun, hevent, hvalid, hvraw, hts⟩ := run_passing_frame (y := y) n hz hlen (c := c) rfl
  obtain ⟨hsync, hpid, hid, hdlc, hdata, hchecksum, hstale⟩ :=
    (assembling_openFrame n hz hlen.le).published hlen c hvraw
  exact ⟨fun k u hk hk' hu => frame_not_verified_before_end n hz hlen.le (.byte c) hk hk' hu, t, hrun,
    beq_iff_eq.mpr hevent, hvalid, hsync, hpid, hid, hdlc, hdata, hchecksum, hts, hstale⟩

/-- Settles O48: any other byte fails, in the last cycle, and the frame before it left the VerifiedFrame alone. -/
theorem wrongChecksumFrameIsRejected : Obligations.WrongChecksumFrameIsRejected := by
  intro s n y pid c data hz hlen hc start
  obtain ⟨t, hrun, hevent, hpos, hports⟩ := run_failing_frame (y := y) n hz hlen hc
  have hrejected : t.frameRejected = true := beq_iff_eq.mpr hevent
  have hwait : t.readState = some .waitSync := State.readState_waitSync_iff.mpr (by rw [hpos]; decide)
  refine ⟨fun k u hk hk' hu => ?_, t, hrun, hrejected, hports, hwait⟩
  rcases hk'.lt_or_eq with hlt | rfl
  · exact frame_not_verified_before_end n hz hlen.le (.byte c) hk hlt hu
  · cases hrun.symm.trans hu
    exact beq_eq_false_iff_ne.mpr (hevent.trans_ne (by decide))

end Sys2Proof.Machine
end
